-- ==== Sys2Proof/Word.lean ====
section
/-! DEFINITION. The two word types of the part: the 16-bit word of the register window and the 32-bit timebase value. -/

namespace Sys2Proof

/-- One word of the register window, 16 bits (11_register_window.md, introduction). -/
abbrev Word := BitVec 16

/-- A timebase value, and every other 32-bit quantity that is counted modulo 2^32 (R1, R2). -/
abbrev Time := BitVec 32

/-- A 7-bit word address of the register window, 0x00 to 0x7F. -/
abbrev Address := BitVec 7

end Sys2Proof
end

