-- ==== Sys2Proof/Config.lean ====
section
/-! DEFINITION. The constants the spec fixes for every CDL-316. The spec leaves no result undefined, so there is no free value here. -/

namespace Sys2Proof.Config

/-- R17: the group table holds at most four open groups. -/
abbrev maxGroups : Nat := 4

/-- R98: the event queue holds at most 32 records. -/
abbrev maxRecords : Nat := 32

/-- R105: an offer that finds this many records, or more, is dropped. -/
abbrev dropThreshold : Nat := 31

/-- R135: the armed list holds at most 16 armed actions. -/
abbrev maxArmed : Nat := 16

/-- R116: each schedule bank holds entries 0 to 11. -/
abbrev bankSize : Nat := 12

/-- R12: a last accepted edge time is discarded this many ticks after it. -/
abbrev acceptedLifetime : Nat := 65552

/-- R59: a fault score lies in 0..63. -/
abbrev maxScore : Nat := 63

/-- R59: a good-run count lies in 0..255. -/
abbrev maxGoodRun : Nat := 255

/-- R93, R94, R158: Pu must be below 2^28 for a run. -/
abbrev periodBound : Nat := 2 ^ 28

/-- R93, R95, R158: S must be below 2^30 for a run. -/
abbrev timeoutBound : Nat := 2 ^ 30

/-- R21: GWIN refuses values above 32,767. -/
abbrev maxWindow : Nat := 32767

end Sys2Proof.Config
end

