-- ==== Sys2Proof/Syntax.lean ====
section
/-! DEFINITION. The commands: one constructor of `Instr` for each row of spec/opcode_table.json, with the names the operands use. -/

namespace Sys2Proof

/-- The three lanes (00_scope.md section 4.2), index 0, 1 and 2. -/
inductive Lane where
  | a | b | c
  deriving DecidableEq, Repr

/-- The writable 32-bit pairs (R185). -/
inductive WritablePair where
  | pmin | pmax | stallto
  deriving DecidableEq, Repr

/-- The sixteen readable 32-bit pairs (R185); `rec4` is REC4 with REC5, and so on. -/
inductive Pair where
  | tbase | healthA | healthB | healthC | pmin | pmax | stallto | lastanc | refper | anccnt | armnext | snaptime
  | rec4 | rec6 | rec8 | rec10
  deriving DecidableEq, Repr

/-- The four staging words (R118). -/
inductive StagingWord where
  | estg0 | estg1 | estg2 | estg3
  deriving DecidableEq, Repr

/-- The events of the field and of time whose one act may offer several records (R13, R24, R28, R66, R83, R126). -/
inductive TickEvent where
  | sample (lane : Lane) (level : Bool)
  | arrival (lane : Lane) (stamp : Time)
  | groupExpiry (rank : Nat)
  deriving DecidableEq, Repr

/-- R109: where ACK EVENTs fall within the act of an event of their tick. The first is taken once `after` offers of the act are
behind; each number of `further` stands for one more ACK EVENT, that many offers behind the one before it. Everything an anchor
notice offers counts as one offer: no command is taken within its work (R126, log entry 21). -/
structure AckPlace where
  event : TickEvent
  after : Nat
  further : List Nat
  deriving DecidableEq, Repr

/-- A command. Command words carry the 8-bit argument field of the word that was written to CMD (R155, section 11.6);
register writes carry the word written. -/
inductive Instr where
  /-- HARD_RESET (R168): power-on, or the RESET pin asserted; `held` when it stays asserted, not `held` when it is released. -/
  | hardReset (held : Bool := false)
  /-- LANE_SAMPLE (R8): the lane pin shows `level`, and a front end whose sample is due takes it. -/
  | laneSample (lane : Lane) (level : Bool)
  /-- LAST_ACCEPTED_DISCARD (R12). -/
  | lastAcceptedDiscard (lane : Lane)
  /-- ARRIVAL (R22): an arrival from `lane` stamped `stamp` reaches the group table. -/
  | arrival (lane : Lane) (stamp : Time)
  /-- GROUP_EXPIRY (R28) of the open group of open order `rank`, 1 the oldest. -/
  | groupExpiry (rank : Nat)
  /-- STALL_EXPIRY (R89). -/
  | stallExpiry
  /-- ARMED_ACTION_EXPIRY (R137): of the head of the armed list. -/
  | armedActionExpiry
  /-- START (R160). -/
  | start (arg : BitVec 8)
  /-- STOP (R162). -/
  | stop (arg : BitVec 8)
  /-- SOFT_RESET (R165). -/
  | softReset (arg : BitVec 8)
  /-- COMMIT (R124). -/
  | commit (arg : BitVec 8)
  /-- CANCEL_COMMIT (R125). -/
  | cancelCommit (arg : BitVec 8)
  /-- FLUSH (R141): bits 3..0 of the argument are the line mask. -/
  | flush (arg : BitVec 8)
  /-- FORCE (R144): bits 1..0 of the argument are the line, bits 6..4 the action code. -/
  | force (arg : BitVec 8)
  /-- LANE_ENABLE (R77): bits 1..0 of the argument are the lane code. -/
  | laneEnable (arg : BitVec 8)
  /-- LANE_DISABLE (R78). -/
  | laneDisable (arg : BitVec 8)
  /-- LANE_READMIT (R79). -/
  | laneReadmit (arg : BitVec 8)
  /-- ACK_EVENT (R108): on its own, or within the act of an event of its tick (R109), which then happens in the same command. -/
  | ackEvent (arg : BitVec 8) (during : Option AckPlace := none)
  /-- SNAPSHOT (R179). -/
  | snapshot (arg : BitVec 8)
  /-- CLEAR_COUNTERS (R181). -/
  | clearCounters (arg : BitVec 8)
  /-- ILLEGAL (R155): a command word whose code names no command. -/
  | illegal (code : BitVec 8) (arg : BitVec 8)
  /-- READ_SHADOW (R119): an ECTL write. -/
  | readShadow (index : BitVec 4)
  /-- READ_ACTIVE (R119): an ECTL write. -/
  | readActive (index : BitVec 4)
  /-- WRITE (R120): an ECTL write. -/
  | write (index : BitVec 4)
  /-- UNKNOWN_OPERATION (R119): an ECTL write whose operation code names none of the three operations. -/
  | unknownOperation (operation : BitVec 3) (index : BitVec 4)
  /-- STAGING_WRITE (R118). -/
  | stagingWrite (word : StagingWord) (value : Word)
  /-- PRESCALE_WRITE (R3). -/
  | prescaleWrite (value : Word)
  /-- LCFG_WRITE (R14): LCFGA, LCFGB or LCFGC. -/
  | lcfgWrite (lane : Lane) (value : Word)
  /-- BLANK_WRITE (R14): BLANKA, BLANKB or BLANKC. -/
  | blankWrite (lane : Lane) (value : Word)
  /-- GWIN_WRITE (R21). -/
  | gwinWrite (value : Word)
  /-- VOTECFG_WRITE (R49). -/
  | votecfgWrite (value : Word)
  /-- HWEIGHT_WRITE (R63). -/
  | hweightWrite (value : Word)
  /-- HLEVEL_WRITE (R64). -/
  | hlevelWrite (value : Word)
  /-- HRUN_WRITE (R65). -/
  | hrunWrite (value : Word)
  /-- QTHR_WRITE (R114). -/
  | qthrWrite (value : Word)
  /-- SCHCFG_WRITE (R122). -/
  | schcfgWrite (value : Word)
  /-- OUTCFG_WRITE (R146). -/
  | outcfgWrite (value : Word)
  /-- INTEN_WRITE (R175). -/
  | intenWrite (value : Word)
  /-- INTFLAG_WRITE (R173). -/
  | intflagWrite (value : Word)
  /-- BUSSTAT_WRITE (R190). -/
  | busstatWrite (value : Word)
  /-- PAIR_HIGH_WRITE (R188). -/
  | pairHighWrite (pair : WritablePair) (value : Word)
  /-- PAIR_LOW_WRITE (R189). -/
  | pairLowWrite (pair : WritablePair) (value : Word)
  /-- PAIR_LOW_READ (R186). -/
  | pairLowRead (pair : Pair)
  /-- PAIR_HIGH_READ (R187). -/
  | pairHighRead (pair : Pair)
  /-- REGISTER_WRITE (R184): a write to a read-only location or an unassigned address. -/
  | registerWrite (address : Address) (value : Word)
  /-- TIMEBASE_ADVANCE (R2): one prescaled period of CLK. -/
  | timebaseAdvance
  deriving DecidableEq, Repr

end Sys2Proof
end

