-- ==== Sys2Proof/WellFormed.lean ====
section
/-! DEFINITION. Which terms of `Instr` are commands the part can be given: four rows carry an operand wider than the row's own cases. -/

namespace Sys2Proof

/-- The addresses whose map entry takes a write (section 11.5: RW, W and RW1C). -/
def writableAddress (address : Address) : Bool :=
  [0x01, 0x03, 0x04, 0x05, 0x06, 0x0A, 0x0B, 0x0C, 0x0D, 0x0E, 0x0F, 0x11, 0x12, 0x15, 0x16, 0x17].contains address.toNat ||
  [0x20, 0x21, 0x22, 0x23, 0x24, 0x25, 0x2E, 0x40, 0x41, 0x42, 0x43, 0x44, 0x46, 0x48].contains address.toNat

/-- Section 11.6: the codes 0x01 to 0x0D name the thirteen commands. -/
def namesCommand (code : BitVec 8) : Bool := 0x01 ≤ code.toNat && code.toNat ≤ 0x0D

/-- The rank of an open group lies in 1..4 (R17). -/
def rankInRange (rank : Nat) : Bool := 1 ≤ rank && rank ≤ Config.maxGroups

/-- An event is well formed when it names an open group that can be. -/
def TickEvent.wellFormed : TickEvent → Bool
  | .groupExpiry rank => rankInRange rank
  | .sample _ _ | .arrival _ _ => true

/-- A command is well formed when its operands lie in the row's own range. -/
def Instr.wellFormed : Instr → Bool
  | .groupExpiry rank => rankInRange rank
  | .illegal code _ => !namesCommand code
  | .unknownOperation operation _ => 3 ≤ operation.toNat
  | .registerWrite address _ => !writableAddress address
  | .ackEvent _ (some place) => place.event.wellFormed
  | .hardReset _ | .laneSample _ _ | .lastAcceptedDiscard _ | .arrival _ _ | .stallExpiry | .armedActionExpiry
  | .start _ | .stop _ | .softReset _ | .commit _ | .cancelCommit _ | .flush _ | .force _ | .laneEnable _
  | .laneDisable _ | .laneReadmit _ | .ackEvent _ none | .snapshot _ | .clearCounters _ | .readShadow _ | .readActive _
  | .write _ | .stagingWrite _ _ | .prescaleWrite _ | .lcfgWrite _ _ | .blankWrite _ _ | .gwinWrite _
  | .votecfgWrite _ | .hweightWrite _ | .hlevelWrite _ | .hrunWrite _ | .qthrWrite _ | .schcfgWrite _ | .outcfgWrite _
  | .intenWrite _ | .intflagWrite _ | .busstatWrite _ | .pairHighWrite _ _ | .pairLowWrite _ _ | .pairLowRead _
  | .pairHighRead _ | .timebaseAdvance => true

end Sys2Proof
end

