-- ==== Sys2Proof/Decode.lean ====
section
/-! DEFINITION. Which command a bus access makes (R155, R183, R184, R193, sections 11.5 to 11.7), and the host's
`decodeTableWord`, which answers none: no row of the table gives bits. -/

namespace Sys2Proof

/-- The command a code names, with its argument (R155, section 11.6). -/
def commandOfCode (code arg : BitVec 8) : Instr :=
  match code.toNat with
  | 0x01 => .start arg
  | 0x02 => .stop arg
  | 0x03 => .softReset arg
  | 0x04 => .commit arg
  | 0x05 => .cancelCommit arg
  | 0x06 => .flush arg
  | 0x07 => .force arg
  | 0x08 => .laneEnable arg
  | 0x09 => .laneDisable arg
  | 0x0A => .laneReadmit arg
  | 0x0B => .ackEvent arg none
  | 0x0C => .snapshot arg
  | 0x0D => .clearCounters arg
  | _ => .illegal code arg

/-- A command word: the code in bits 15..8, the argument in bits 7..0 (section 11.6). -/
def commandOfWord (value : Word) : Instr := commandOfCode (value.extractLsb' 8 8) (value.extractLsb' 0 8)

/-- The operation an ECTL write asks for, by its code and index (R119, section 11.7). -/
def commandOfOperation (operation : BitVec 3) (index : BitVec 4) : Instr :=
  match operation.toNat with
  | 0 => .readShadow index
  | 1 => .readActive index
  | 2 => .write index
  | _ => .unknownOperation operation index

/-- An ECTL write: the index in bits 3..0, the operation in bits 6..4 (section 11.7). -/
def commandOfEntryControl (value : Word) : Instr := commandOfOperation (value.extractLsb' 4 3) (value.extractLsb' 0 4)

/-- The command a word write makes, by the register map of section 11.5 (R184). -/
def commandOfWrite (address : Address) (value : Word) : Instr :=
  match address.toNat with
  | 0x01 => commandOfWord value
  | 0x03 => .busstatWrite value
  | 0x04 => .intflagWrite value
  | 0x05 => .intenWrite value
  | 0x06 => .prescaleWrite value
  | 0x0A => .lcfgWrite .a value
  | 0x0B => .lcfgWrite .b value
  | 0x0C => .lcfgWrite .c value
  | 0x0D => .blankWrite .a value
  | 0x0E => .blankWrite .b value
  | 0x0F => .blankWrite .c value
  | 0x11 => .gwinWrite value
  | 0x12 => .votecfgWrite value
  | 0x15 => .hweightWrite value
  | 0x16 => .hlevelWrite value
  | 0x17 => .hrunWrite value
  | 0x20 => .pairLowWrite .pmin value
  | 0x21 => .pairHighWrite .pmin value
  | 0x22 => .pairLowWrite .pmax value
  | 0x23 => .pairHighWrite .pmax value
  | 0x24 => .pairLowWrite .stallto value
  | 0x25 => .pairHighWrite .stallto value
  | 0x2E => .qthrWrite value
  | 0x40 => .stagingWrite .estg0 value
  | 0x41 => .stagingWrite .estg1 value
  | 0x42 => .stagingWrite .estg2 value
  | 0x43 => .stagingWrite .estg3 value
  | 0x44 => commandOfEntryControl value
  | 0x46 => .schcfgWrite value
  | 0x48 => .outcfgWrite value
  | _ => .registerWrite address value

/-- Which half of which pair stands at an address (R185, section 11.5); `false` is the low word. -/
def pairAt (address : Address) : Option (Pair × Bool) :=
  match address.toNat with
  | 0x08 => some (.tbase, false)
  | 0x09 => some (.tbase, true)
  | 0x18 => some (.healthA, false)
  | 0x19 => some (.healthA, true)
  | 0x1A => some (.healthB, false)
  | 0x1B => some (.healthB, true)
  | 0x1C => some (.healthC, false)
  | 0x1D => some (.healthC, true)
  | 0x20 => some (.pmin, false)
  | 0x21 => some (.pmin, true)
  | 0x22 => some (.pmax, false)
  | 0x23 => some (.pmax, true)
  | 0x24 => some (.stallto, false)
  | 0x25 => some (.stallto, true)
  | 0x26 => some (.lastanc, false)
  | 0x27 => some (.lastanc, true)
  | 0x28 => some (.refper, false)
  | 0x29 => some (.refper, true)
  | 0x2A => some (.anccnt, false)
  | 0x2B => some (.anccnt, true)
  | 0x34 => some (.rec4, false)
  | 0x35 => some (.rec4, true)
  | 0x36 => some (.rec6, false)
  | 0x37 => some (.rec6, true)
  | 0x38 => some (.rec8, false)
  | 0x39 => some (.rec8, true)
  | 0x3A => some (.rec10, false)
  | 0x3B => some (.rec10, true)
  | 0x4C => some (.armnext, false)
  | 0x4D => some (.armnext, true)
  | 0x50 => some (.snaptime, false)
  | 0x51 => some (.snaptime, true)
  | _ => none

/-- The command a word read makes (R183): a read of a single word or an unassigned address changes nothing and is no row. -/
def commandOfRead (address : Address) : Option Instr :=
  match pairAt address with
  | some (pair, false) => some (.pairLowRead pair)
  | some (pair, true) => some (.pairHighRead pair)
  | none => none

/-- The bus pins and RESET at one moment, RESET, chip select and each strobe given as asserted or not (R168, R193). -/
structure BusPins where
  reset : Bool
  chipSelect : Bool
  readStrobe : Bool
  writeStrobe : Bool
  address : Address
  data : Word
  deriving DecidableEq, Repr

/-- R193: a read is taken with RESET released, chip select and the read strobe alone asserted. -/
def BusPins.reads (pins : BusPins) : Bool := !pins.reset && pins.chipSelect && pins.readStrobe && !pins.writeStrobe

/-- R193: a write is taken with RESET released, chip select and the write strobe alone asserted. -/
def BusPins.writes (pins : BusPins) : Bool := !pins.reset && pins.chipSelect && pins.writeStrobe && !pins.readStrobe

/-- R168, R193: the command the access makes that is taken, if one is; anything else is no access. -/
def commandOfAccess (pins : BusPins) : Option Instr :=
  if pins.reads then commandOfRead pins.address
  else if pins.writes then some (commandOfWrite pins.address pins.data)
  else none

/-- The command a table word spells: none, since no row of spec/opcode_table.json gives bits. -/
def decodeTableWord (_nbits _w : Nat) : Option Instr := none

end Sys2Proof
end

