-- ==== Sys2Proof/Machine/State.lean ====
section
/-! DEFINITION. The state of the part, block by block as 00_scope.md section 2 lists them, as plain data; the reasons a step can
stop; the state after hard reset; and one update per block. -/

namespace Sys2Proof.Machine

/-- The part has no fault that stops it: every refusal of the spec shows in a register and the part goes on
(R155, R119, R190). No meaning raises a fault, so there is no reason to name. -/
inductive Fault where
  deriving DecidableEq, Repr

/-- Why the model has no meaning to offer. -/
inductive Refusal where
  /-- Raised by `exec`'s arm of a command that has no meaning yet, under its mnemonic. Safe: nothing is claimed of it. -/
  | notModelled (mnemonic : String)
  deriving DecidableEq, Repr

/-- One value for each lane, A, B and C. -/
structure Lanes (α : Type) where
  a : α
  b : α
  c : α
  deriving DecidableEq, Repr

/-- The value of one lane. -/
def Lanes.get {α : Type} (v : Lanes α) : Lane → α
  | .a => v.a
  | .b => v.b
  | .c => v.c

/-- The same with one lane's value replaced. -/
def Lanes.set {α : Type} (v : Lanes α) (lane : Lane) (x : α) : Lanes α :=
  match lane with
  | .a => { v with a := x }
  | .b => { v with b := x }
  | .c => { v with c := x }

/-- One value computed for each lane. -/
def Lanes.build {α : Type} (f : Lane → α) : Lanes α := { a := f .a, b := f .b, c := f .c }

/-- The lanes in lane order (00_scope.md section 4.2). -/
def Lane.all : List Lane := [.a, .b, .c]

/-- The four output lines OUT0 to OUT3 (00_scope.md section 4.2). -/
inductive Line where
  | out0 | out1 | out2 | out3
  deriving DecidableEq, Repr

/-- The lines in index order. -/
def Line.all : List Line := [.out0, .out1, .out2, .out3]

/-- One value for each output line. -/
structure Lines (α : Type) where
  out0 : α
  out1 : α
  out2 : α
  out3 : α
  deriving DecidableEq, Repr

/-- The value of one line. -/
def Lines.get {α : Type} (v : Lines α) : Line → α
  | .out0 => v.out0
  | .out1 => v.out1
  | .out2 => v.out2
  | .out3 => v.out3

/-- The same with one line's value replaced. -/
def Lines.set {α : Type} (v : Lines α) (line : Line) (x : α) : Lines α :=
  match line with
  | .out0 => { v with out0 := x }
  | .out1 => { v with out1 := x }
  | .out2 => { v with out2 := x }
  | .out3 => { v with out3 := x }

/-- One value computed for each line. -/
def Lines.build {α : Type} (f : Line → α) : Lines α :=
  { out0 := f .out0, out1 := f .out1, out2 := f .out2, out3 := f .out3 }

/-! ## Timebase (R2, R3) -/

/-- The event from which the prescaler counts the 2^P CLK cycles to the next advance (R2, R3): the last advance, or a
restart of the division by a hard reset or an accepted PRESCALE write. -/
inductive DivisionStart where
  | advance | restart
  deriving DecidableEq, Repr

/-- The timebase counter, P and the prescaler's division. -/
structure Timebase where
  now : Time
  prescale : BitVec 3
  divisionFrom : DivisionStart
  deriving DecidableEq, Repr

/-! ## Lane front ends (R5 to R16) -/

/-- Which transitions become candidate edges (R10). -/
inductive Polarity where
  | rising | falling | both
  deriving DecidableEq, Repr

/-- LCFGx and BLANKx of one lane (R14): enable, polarity, F and the blanking interval. -/
structure LaneConfig where
  enable : Bool
  polarity : Polarity
  filter : Nat
  blanking : Word
  deriving DecidableEq, Repr

/-- A candidate run: its length and the tick of its first sample (R8). -/
structure CandidateRun where
  length : Nat
  start : Time
  deriving DecidableEq, Repr

/-- What one front end holds (section 1.2). `sampleDue` is the model's: this tick's sample has not been taken yet (R5). -/
structure FrontEnd where
  level : Bool
  run : Option CandidateRun
  lastAccepted : Option Time
  sampleDue : Bool
  deriving DecidableEq, Repr

/-! ## Group table (R17 to R40) -/

/-- An open group (R17): its open order is its place in the table's list. -/
structure OpenGroup where
  reference : Time
  members : Lanes (Option Time)
  deadline : Time
  deriving DecidableEq, Repr

/-- The open groups in rank order, the group sequence counter, the settle allowance D and the group window W. -/
structure GroupTable where
  groups : List OpenGroup
  seq : Word
  settle : Nat
  window : Nat
  deriving DecidableEq, Repr

/-- Why a group closed (section 2.5). -/
inductive CloseReason where
  | complete | expired | evicted | stopped
  deriving DecidableEq, Repr

/-! ## Vote (R41 to R58) -/

/-- VOTECFG: the deviation tolerance T and the single-lane option (R49). -/
structure VoteConfig where
  tolerance : Nat
  singleLane : Bool
  deriving DecidableEq, Repr

/-- The vote class of a group (R45 to R48). -/
inductive VoteClass where
  | full | pair | split | degraded | unvoted
  deriving DecidableEq, Repr

/-- The assessment of one lane for one group (R50). -/
inductive Assessment where
  | good | deviant | missing | neutral
  deriving DecidableEq, Repr

/-! ## Lane health (R59 to R81) -/

/-- The lane states (R59). -/
inductive LaneState where
  | idle | off | active | suspect | probation | excluded
  deriving DecidableEq, Repr

/-- The health record of one lane (R59). -/
structure HealthRecord where
  state : LaneState
  score : Nat
  goodRun : Nat
  mark : Bool
  deriving DecidableEq, Repr

/-- HWEIGHT, HLEVEL and HRUN (R63 to R65): Wm, Wd, auto-readmit, Ts, Te, Np and Nr. -/
structure HealthConfig where
  missWeight : Nat
  deviantWeight : Nat
  autoReadmit : Bool
  suspect : Nat
  exclude : Nat
  probation : Nat
  readmit : Nat
  deriving DecidableEq, Repr

/-- The cause of a LANE record (R74). -/
inductive LaneCause where
  | assessment | enable | disable | readmit
  deriving DecidableEq, Repr

/-! ## Period tracker (R82 to R97) -/

/-- Whether the stall timer runs (section 5.1). -/
inductive StallState where
  | watching | stalled
  deriving DecidableEq, Repr

/-- The tracker's five items (section 5.1). -/
structure Tracker where
  lastAnchor : Option Time
  refPeriod : Option Time
  anchorCount : Time
  stall : StallState
  origin : Time
  deriving DecidableEq, Repr

/-- PMIN, PMAX and STALLTO: Pl, Pu and S (R93). -/
structure Limits where
  lower : Time
  upper : Time
  timeout : Time
  deriving DecidableEq, Repr

/-- The limiter status of an anchor (R86). -/
inductive LimiterStatus where
  | within | below | above
  deriving DecidableEq, Repr

/-! ## Schedule banks (R116 to R133) -/

/-- What an action does to a latch (R116, R138). -/
inductive Action where
  | set | clear | toggle | pulseHigh | pulseLow
  deriving DecidableEq, Repr

/-- How a delay field is read (R129). -/
inductive DelayMode where
  | ticks | fraction
  deriving DecidableEq, Repr

/-- One schedule entry, eight fields (section 7.1). -/
structure Entry where
  enabled : Bool
  line : Line
  action : Action
  exponent : Nat
  phase : Nat
  mode : DelayMode
  delay : Nat
  width : Nat
  deriving DecidableEq, Repr

/-- The staging words ESTG0 to ESTG3 as the fields they hold (R118, section 11.7): any value a field can carry, unused
action codes among them. -/
structure Staging where
  enabled : Bool
  line : Line
  action : BitVec 3
  exponent : BitVec 3
  mode : DelayMode
  phase : BitVec 6
  delayHigh : BitVec 8
  delayLow : Word
  width : Word
  deriving DecidableEq, Repr

/-- The two banks (R116). -/
inductive Bank where
  | a | b
  deriving DecidableEq, Repr

/-- The commit status (R123). -/
inductive CommitStatus where
  | none | pending | done | cancelled
  deriving DecidableEq, Repr

/-- The result part of the entry status (R121). -/
inductive EntryResult where
  | none | done | busy | arg
  deriving DecidableEq, Repr

/-- The late policy (R122). -/
inductive LatePolicy where
  | skip | execute
  deriving DecidableEq, Repr

/-- The schedule banks block. ECTL and ESTAT show one and the same index and operation (R119, R121), held once here. -/
structure Schedule where
  bankA : List Entry
  bankB : List Entry
  active : Bank
  commit : CommitStatus
  staging : Staging
  index : BitVec 4
  operation : BitVec 3
  entryResult : EntryResult
  latePolicy : LatePolicy
  deriving DecidableEq, Repr

/-- Why an entry was not armed (R132). -/
inductive MissedReason where
  | full | late | noPeriod
  deriving DecidableEq, Repr

/-! ## Armed list and output lines (R134 to R152) -/

/-- Whether a pulse's action is its beginning or its end (R134). -/
inductive Phase where
  | leading | trailing
  deriving DecidableEq, Repr

/-- An armed action, seven fields (R134). -/
structure ArmedAction where
  entry : Nat
  line : Line
  action : Action
  width : Nat
  due : Time
  phase : Phase
  anchor : Time
  deriving DecidableEq, Repr

/-- The latches, and OUTCFG's output enables and safe levels (R146 to R148). -/
structure Output where
  latch : Lines Bool
  enable : Lines Bool
  safe : Lines Bool
  deriving DecidableEq, Repr

/-! ## Event queue (R98 to R115) -/

/-- The fields of a GROUP record (R88). -/
structure GroupFields where
  seq : Word
  reason : CloseReason
  reference : Time
  offsets : Lanes (Option Int)
  voteClass : VoteClass
  votedTime : Option Time
  spread : Option Nat
  assessments : Lanes Assessment
  outOfOrder : Bool
  anchorIndex : Option Time
  rawPeriod : Option Time
  limiter : Option LimiterStatus
  deriving DecidableEq, Repr

/-- The fields of a LANE record (R74). -/
structure LaneFields where
  lane : Lane
  old : LaneState
  new : LaneState
  cause : LaneCause
  score : Nat
  groupSeq : Option Word
  deriving DecidableEq, Repr

/-- The eight kinds of record and their fields (section 6.2). -/
inductive RecordBody where
  | start (time : Time) (states : Lanes LaneState)
  | stop (time : Time) (flushed : Nat) (discarded : Nat)
  | group (fields : GroupFields)
  | lane (fields : LaneFields)
  | stall (expiry : Time) (lastAnchor : Option Time)
  | commit (bank : Bank) (anchor : Time)
  | missed (entry : Nat) (bank : Bank) (anchor : Time) (reason : MissedReason)
  | overrun (dropped : Word)
  deriving DecidableEq, Repr

/-- A record as the queue holds it: its record sequence number and its kind's fields (R98, R99). -/
structure Record where
  seq : Word
  body : RecordBody
  deriving DecidableEq, Repr

/-- The results CMDRES shows (R157). -/
inductive CmdResult where
  | none | done | pending | busy | state | arg | illegal
  deriving DecidableEq, Repr

/-- The records, head first, the record sequence counter and the event level threshold. The last two fields are the model's and
rest at their default between commands (R109): while an act is carried out, `acks` says which ACK EVENTs are still to be taken
within it, each by the number of offers between it and the one before it (an anchor notice's offers count as one: R126, log entry
21), and `ackAnswer` holds the last one's result. -/
structure EventQueue where
  records : List Record
  seq : Word
  threshold : Nat
  acks : List Nat := []
  ackAnswer : CmdResult := .none
  deriving DecidableEq, Repr

/-! ## Command unit (R153 to R170) -/

/-- The part states (R153). -/
inductive PartState where
  | config | run
  deriving DecidableEq, Repr

/-- Which act last put the part into CONFIG (R154). -/
inductive EntryCause where
  | hard | soft | stop
  deriving DecidableEq, Repr

/-- RUNSTAT and CMDRES (R154, R157). -/
structure CommandUnit where
  partState : PartState
  entryCause : EntryCause
  code : BitVec 8
  result : CmdResult
  startError : Nat
  deriving DecidableEq, Repr

/-! ## Interrupt unit (R171 to R177) -/

/-- The seven latched cause flags (R171). EVENT LEVEL is not latched: it follows the queue (R113). -/
structure Flags where
  lane : Bool
  stall : Bool
  overrun : Bool
  commit : Bool
  missed : Bool
  limit : Bool
  access : Bool
  deriving DecidableEq, Repr

/-- INTFLAG's latched flags and INTEN. -/
structure Interrupt where
  flags : Flags
  enables : BitVec 8
  deriving DecidableEq, Repr

/-! ## Statistics (R178 to R182) -/

/-- The five counters of one lane (R16, R57). -/
structure LaneCounters where
  accepted : Word
  glitches : Word
  blanked : Word
  deviant : Word
  missing : Word
  deriving DecidableEq, Repr

/-- The 23 counters (section 10.4). -/
structure Counters where
  lanes : Lanes LaneCounters
  complete : Word
  expired : Word
  evicted : Word
  unvoted : Word
  split : Word
  outOfOrder : Word
  lateExecutes : Word
  missed : Word
  deriving DecidableEq, Repr

/-- The live counters, the snapshot bank, the snapshot time and the taken indication (R179, R180). -/
structure Statistics where
  live : Counters
  bank : Counters
  time : Time
  taken : Bool
  deriving DecidableEq, Repr

/-! ## Register window (R183 to R191) -/

/-- The three bus status bits (R190). -/
structure BusStatus where
  order : Bool
  state : Bool
  value : Bool
  deriving DecidableEq, Repr

/-- The read hold, the write hold and the bus status. `readData` is the model's: the word the last pair read returned. -/
structure RegisterWindow where
  readValue : Word
  readTag : Option Pair
  writeValue : Word
  writeTag : Option WritablePair
  busStatus : BusStatus
  readData : Word
  deriving DecidableEq, Repr

/-! ## The whole part -/

/-- The state of the part, whether RESET is asserted (or power-on reset under way, R168), and the commands that wait, first in,
first out. -/
structure State where
  resetAsserted : Bool
  timebase : Timebase
  lanePins : Lanes Bool
  laneConfig : Lanes LaneConfig
  frontEnds : Lanes FrontEnd
  table : GroupTable
  vote : VoteConfig
  health : Lanes HealthRecord
  healthConfig : HealthConfig
  tracker : Tracker
  limits : Limits
  queue : EventQueue
  schedule : Schedule
  armed : List ArmedAction
  output : Output
  command : CommandUnit
  interrupt : Interrupt
  stats : Statistics
  window : RegisterWindow
  pending : List Instr
  deriving DecidableEq, Repr

/-! One update per field; Sys2Proof/Laws/State.lean says what each leaves unchanged. -/

/-- The state with `resetAsserted` replaced. -/
def State.setResetAsserted (s : State) (x : Bool) : State := { s with resetAsserted := x }

/-- The state with `timebase` replaced. -/
def State.setTimebase (s : State) (x : Timebase) : State := { s with timebase := x }

/-- The state with `lanePins` replaced. -/
def State.setLanePins (s : State) (x : Lanes Bool) : State := { s with lanePins := x }

/-- The state with `laneConfig` replaced. -/
def State.setLaneConfig (s : State) (x : Lanes LaneConfig) : State := { s with laneConfig := x }

/-- The state with `frontEnds` replaced. -/
def State.setFrontEnds (s : State) (x : Lanes FrontEnd) : State := { s with frontEnds := x }

/-- The state with `table` replaced. -/
def State.setTable (s : State) (x : GroupTable) : State := { s with table := x }

/-- The state with `vote` replaced. -/
def State.setVote (s : State) (x : VoteConfig) : State := { s with vote := x }

/-- The state with `health` replaced. -/
def State.setHealth (s : State) (x : Lanes HealthRecord) : State := { s with health := x }

/-- The state with `healthConfig` replaced. -/
def State.setHealthConfig (s : State) (x : HealthConfig) : State := { s with healthConfig := x }

/-- The state with `tracker` replaced. -/
def State.setTracker (s : State) (x : Tracker) : State := { s with tracker := x }

/-- The state with `limits` replaced. -/
def State.setLimits (s : State) (x : Limits) : State := { s with limits := x }

/-- The state with `queue` replaced. -/
def State.setQueue (s : State) (x : EventQueue) : State := { s with queue := x }

/-- The state with `schedule` replaced. -/
def State.setSchedule (s : State) (x : Schedule) : State := { s with schedule := x }

/-- The state with `armed` replaced. -/
def State.setArmed (s : State) (x : List ArmedAction) : State := { s with armed := x }

/-- The state with `output` replaced. -/
def State.setOutput (s : State) (x : Output) : State := { s with output := x }

/-- The state with `command` replaced. -/
def State.setCommand (s : State) (x : CommandUnit) : State := { s with command := x }

/-- The state with `interrupt` replaced. -/
def State.setInterrupt (s : State) (x : Interrupt) : State := { s with interrupt := x }

/-- The state with `stats` replaced. -/
def State.setStats (s : State) (x : Statistics) : State := { s with stats := x }

/-- The state with `window` replaced. -/
def State.setWindow (s : State) (x : RegisterWindow) : State := { s with window := x }

/-- The state with `pending` replaced. -/
def State.setPending (s : State) (x : List Instr) : State := { s with pending := x }

/-! ## Reset values -/

/-- The cleared entry (R116). -/
def Entry.cleared : Entry :=
  { enabled := false, line := .out0, action := .set, exponent := 0, phase := 0, mode := .ticks, delay := 0, width := 1 }

/-- A bank of twelve cleared entries (R116). -/
def clearedBank : List Entry := List.replicate Config.bankSize Entry.cleared

/-- The staging after a reset: the cleared entry (R118). -/
def Staging.cleared : Staging :=
  { enabled := false, line := .out0, action := 0, exponent := 0, mode := .ticks, phase := 0, delayHigh := 0, delayLow := 0,
    width := 1 }

/-- Every counter at 0. -/
def Counters.zero : Counters :=
  let lane : LaneCounters := { accepted := 0, glitches := 0, blanked := 0, deviant := 0, missing := 0 }
  { lanes := { a := lane, b := lane, c := lane }, complete := 0, expired := 0, evicted := 0, unvoted := 0, split := 0,
    outOfOrder := 0, lateExecutes := 0, missed := 0 }

/-- Every latched flag clear (R177). -/
def Flags.clear : Flags :=
  { lane := false, stall := false, overrun := false, commit := false, missed := false, limit := false, access := false }

/-- Every bus status bit clear (R190). -/
def BusStatus.clear : BusStatus := { order := false, state := false, value := false }

/-- A front end that is not sampling (R7). DESIGN CHOICE (log entry 14): what it holds has no meaning and is not visible. -/
def FrontEnd.stopped : FrontEnd := { level := false, run := none, lastAccepted := none, sampleDue := false }

/-- A lane's health record with score 0, good-run count 0 and mark clear, in a given state (R61, R62, R77 to R79). -/
def HealthRecord.fresh (state : LaneState) : HealthRecord := { state := state, score := 0, goodRun := 0, mark := false }

/-- The tracker with no anchor, a given anchor count and stall origin (R82). -/
def Tracker.cleared (count origin : Time) : Tracker :=
  { lastAnchor := none, refPeriod := none, anchorCount := count, stall := .watching, origin := origin }

/-- The state right after hard reset (R168 and the table after it), RESET released and no command waiting. The lane pins are inputs: their
level here is a DESIGN CHOICE (log entry 1). -/
def State.reset : State :=
  let lane : LaneConfig := { enable := false, polarity := .rising, filter := 1, blanking := 0 }
  let low : Lines Bool := { out0 := false, out1 := false, out2 := false, out3 := false }
  { resetAsserted := false
    timebase := { now := 0, prescale := 0, divisionFrom := .restart }
    lanePins := { a := false, b := false, c := false }
    laneConfig := { a := lane, b := lane, c := lane }
    frontEnds := { a := .stopped, b := .stopped, c := .stopped }
    table := { groups := [], seq := 0, settle := 0, window := 0 }
    vote := { tolerance := 0, singleLane := false }
    health := { a := .fresh .idle, b := .fresh .idle, c := .fresh .idle }
    healthConfig := { missWeight := 2, deviantWeight := 3, autoReadmit := false, suspect := 8, exclude := 16, probation := 16,
                      readmit := 32 }
    tracker := .cleared 0 0
    limits := { lower := 0, upper := 0, timeout := 0 }
    queue := { records := [], seq := 0, threshold := 1 }
    schedule := { bankA := clearedBank, bankB := clearedBank, active := .a, commit := .none, staging := .cleared, index := 0,
                  operation := 0, entryResult := .none, latePolicy := .skip }
    armed := []
    output := { latch := low, enable := low, safe := low }
    command := { partState := .config, entryCause := .hard, code := 0, result := .none, startError := 0 }
    interrupt := { flags := .clear, enables := 0 }
    stats := { live := .zero, bank := .zero, time := 0, taken := false }
    window := { readValue := 0, readTag := none, writeValue := 0, writeTag := none, busStatus := .clear, readData := 0 }
    pending := [] }

end Sys2Proof.Machine
end

