-- ==== Sys2Proof/Machine/Ops.lean ====
section
/-! DEFINITION. The named operations every block uses: comparison of times, saturating counts, updates of one lane or line,
and the record of a command's result. -/

namespace Sys2Proof.Machine

/-! ## Times (R1) -/

/-- R1: time `a` is not later than time `b`. -/
def notLater (a b : Time) : Bool := (b - a).toNat < 2 ^ 31

/-- R1: time `a` is later than time `b`. -/
def later (a b : Time) : Bool := !notLater a b

/-- The ticks from `origin` to `t`, modulo 2^32. -/
def elapsed (origin t : Time) : Nat := (t - origin).toNat

/-! ## Counts -/

/-- A 16-bit counter that stays at 65,535 (R16, R39, R104, R178). -/
def saturatingNext (count : Word) : Word := if count = 0xFFFF then count else count + 1

/-! ## Lanes and lines -/

/-- One lane's value changed by `f`. -/
def Lanes.update {α : Type} (v : Lanes α) (lane : Lane) (f : α → α) : Lanes α := v.set lane (f (v.get lane))

/-- Every lane's value changed by `f`. -/
def Lanes.map {α β : Type} (f : α → β) (v : Lanes α) : Lanes β := Lanes.build fun l => f (v.get l)

/-- Whether some lane satisfies `p`. -/
def Lane.any (p : Lane → Bool) : Bool := p .a || p .b || p .c

/-- Whether every lane satisfies `p`. -/
def Lane.every (p : Lane → Bool) : Bool := p .a && p .b && p .c

/-! ## Reading the state -/

/-- The timebase now (R2). -/
def State.now (s : State) : Time := s.timebase.now

/-- Whether the part is in RUN (R153). -/
def State.inRun (s : State) : Bool := s.command.partState = .run

/-- R25, R59: the lane states in the waiting set; a front end samples in the same states (R5). -/
def LaneState.waits : LaneState → Bool
  | .active | .suspect | .probation | .excluded => true
  | .idle | .off => false

/-- R60: the lane states that vote. -/
def LaneState.votes : LaneState → Bool
  | .active | .suspect => true
  | .idle | .off | .probation | .excluded => false

/-- R42: the lane states that observe. -/
def LaneState.observes : LaneState → Bool
  | .probation | .excluded => true
  | .idle | .off | .active | .suspect => false

/-- R5: the lane is sampled. -/
def State.samples (s : State) (lane : Lane) : Bool := s.inRun && (s.health.get lane).state.waits

/-! ## Writing one part of a block -/

/-- Changes one lane's front end. -/
def State.updateFrontEnd (s : State) (lane : Lane) (f : FrontEnd → FrontEnd) : State :=
  s.setFrontEnds (s.frontEnds.update lane f)

/-- Changes one lane's counters. -/
def State.countLane (s : State) (lane : Lane) (f : LaneCounters → LaneCounters) : State :=
  s.setStats { s.stats with live := { s.stats.live with lanes := s.stats.live.lanes.update lane f } }

/-- Changes the part counters. -/
def State.count (s : State) (f : Counters → Counters) : State := s.setStats { s.stats with live := f s.stats.live }

/-- Changes one lane's health record. -/
def State.setLaneHealth (s : State) (lane : Lane) (h : HealthRecord) : State := s.setHealth (s.health.set lane h)

/-- Changes one lane's enable (R14). -/
def State.setLaneEnable (s : State) (lane : Lane) (enable : Bool) : State :=
  s.setLaneConfig (s.laneConfig.update lane fun c => { c with enable := enable })

/-- R157: a command write replaces the code, the result and the START error code. -/
def State.answer (s : State) (code : BitVec 8) (result : CmdResult) (startError : Nat := 0) : State :=
  s.setCommand { s.command with code := code, result := result, startError := startError }

/-! ## The answer of a meaning -/

/-- What a meaning answers. -/
abbrev Answer := Host.Outcome State Fault Refusal

/-- R168: what an access or an event makes of the state is taken unless RESET is asserted. -/
def State.accept (s t : State) : Answer := .next (if s.resetAsserted then s else t)

end Sys2Proof.Machine
end

