-- ==== Sys2Proof/Machine/Operands.lean ====
section
/-! DEFINITION. The fields of the words the host writes and reads: extraction and placing of fields, and every code of sections
11.6 to 11.9. -/

namespace Sys2Proof.Machine

/-! ## Fields of a word -/

/-- The field of `len` bits whose lowest bit is `lo`. -/
def field (w : Word) (lo len : Nat) : BitVec len := w.extractLsb' lo len

/-- The same as a number. -/
def fieldNat (w : Word) (lo len : Nat) : Nat := (field w lo len).toNat

/-- One bit of a word. -/
def bit (w : Word) (n : Nat) : Bool := w.getLsbD n

/-- A field placed with its lowest bit at `lo`. -/
def place {n : Nat} (v : BitVec n) (lo : Nat) : Word := (v.setWidth 16) <<< lo

/-- A one-bit field placed at bit `n`. -/
def placeBit (b : Bool) (n : Nat) : Word := place (BitVec.ofBool b) n

/-- A number placed as a field of `len` bits. -/
def placeNat (v len lo : Nat) : Word := place (BitVec.ofNat len v) lo

/-- Bits 15..0 of a 32-bit value (R185). -/
def lowWord (t : Time) : Word := t.extractLsb' 0 16

/-- Bits 31..16 of a 32-bit value (R185). -/
def highWord (t : Time) : Word := t.extractLsb' 16 16

/-- The 32-bit value of a high and a low word (R185). -/
def joinWords (high low : Word) : Time := high ++ low

/-! ## Codes -/

/-- The lane a 2-bit lane field names; code 3 names none (R76). -/
def laneOfCode (code : BitVec 2) : Option Lane :=
  match code.toNat with
  | 0 => some .a
  | 1 => some .b
  | 2 => some .c
  | _ => none

/-- The index of a lane (00_scope.md section 4.2). -/
def laneCode : Lane → BitVec 2
  | .a => 0
  | .b => 1
  | .c => 2

/-- The line a 2-bit line field names. -/
def lineOfCode (code : BitVec 2) : Line :=
  match code.toNat with
  | 0 => .out0
  | 1 => .out1
  | 2 => .out2
  | _ => .out3

/-- The index of a line. -/
def lineIndex : Line → Nat
  | .out0 => 0
  | .out1 => 1
  | .out2 => 2
  | .out3 => 3

/-- Section 11.6: SET 0, CLEAR 1, TOGGLE 2, PULSE HIGH 3, PULSE LOW 4; codes 5 to 7 are unused. -/
def actionOfCode (code : BitVec 3) : Option Action :=
  match code.toNat with
  | 0 => some .set
  | 1 => some .clear
  | 2 => some .toggle
  | 3 => some .pulseHigh
  | 4 => some .pulseLow
  | _ => none

/-- The code of an action (section 11.6). -/
def actionCode : Action → BitVec 3
  | .set => 0
  | .clear => 1
  | .toggle => 2
  | .pulseHigh => 3
  | .pulseLow => 4

/-- Section 11.8: RISING 0, FALLING 1, BOTH 2; 3 is refused. -/
def polarityOfCode (code : BitVec 2) : Option Polarity :=
  match code.toNat with
  | 0 => some .rising
  | 1 => some .falling
  | 2 => some .both
  | _ => none

/-- The code of a polarity (section 11.8). -/
def polarityCode : Polarity → BitVec 2
  | .rising => 0
  | .falling => 1
  | .both => 2

/-- Section 11.8: the lane state codes. -/
def laneStateCode : LaneState → BitVec 3
  | .idle => 0
  | .off => 1
  | .active => 2
  | .suspect => 3
  | .probation => 4
  | .excluded => 5

/-- Section 11.6: the result codes of CMDRES. -/
def resultCode : CmdResult → BitVec 4
  | .none => 0
  | .done => 1
  | .pending => 2
  | .busy => 3
  | .state => 4
  | .arg => 5
  | .illegal => 6

/-- Section 11.7: the result codes of ESTAT. -/
def entryResultCode : EntryResult → BitVec 2
  | .none => 0
  | .done => 1
  | .busy => 2
  | .arg => 3

/-- Section 11.7: the commit status codes of SCHSTAT. -/
def commitCode : CommitStatus → BitVec 2
  | .none => 0
  | .pending => 1
  | .done => 2
  | .cancelled => 3

/-- Sections 11.7 and 11.9: bank A 0, bank B 1. -/
def bankBit : Bank → Bool
  | .a => false
  | .b => true

/-- Section 11.7: delay mode TICKS 0, FRACTION 1. -/
def delayModeBit : DelayMode → Bool
  | .ticks => false
  | .fraction => true

/-- The delay mode a bit names (section 11.7). -/
def delayModeOfBit (b : Bool) : DelayMode := if b then .fraction else .ticks

/-- Section 11.7: late policy SKIP 0, EXECUTE 1. -/
def latePolicyBit : LatePolicy → Bool
  | .skip => false
  | .execute => true

/-- The late policy a bit names (section 11.7). -/
def latePolicyOfBit (b : Bool) : LatePolicy := if b then .execute else .skip

/-- Section 11.8: part state CONFIG 0, RUN 1. -/
def partStateBit : PartState → Bool
  | .config => false
  | .run => true

/-- Section 11.8: entry cause HARD 0, SOFT 1, STOP 2. -/
def entryCauseCode : EntryCause → BitVec 2
  | .hard => 0
  | .soft => 1
  | .stop => 2

/-- Section 11.9: the assessment codes. -/
def assessmentCode : Assessment → BitVec 2
  | .good => 0
  | .deviant => 1
  | .missing => 2
  | .neutral => 3

/-- Section 11.9: the close reason codes. -/
def closeReasonCode : CloseReason → BitVec 2
  | .complete => 0
  | .expired => 1
  | .evicted => 2
  | .stopped => 3

/-- Section 11.9: the vote class codes. -/
def voteClassCode : VoteClass → BitVec 3
  | .full => 0
  | .pair => 1
  | .split => 2
  | .degraded => 3
  | .unvoted => 4

/-- Section 11.9: the limiter status codes; an absent status reads 0. -/
def limiterCode : Option LimiterStatus → BitVec 2
  | none | some .within => 0
  | some .below => 1
  | some .above => 2

/-- Section 11.9: the LANE cause codes. -/
def laneCauseCode : LaneCause → BitVec 2
  | .assessment => 0
  | .enable => 1
  | .disable => 2
  | .readmit => 3

/-- Section 11.9: the MISSED reason codes. -/
def missedReasonCode : MissedReason → BitVec 2
  | .full => 0
  | .late => 1
  | .noPeriod => 2

/-! ## Line and lane indications -/

/-- Four line bits from bit `lo` upward, OUT0 lowest (section 11.8). -/
def linesField (w : Word) (lo : Nat) : Lines Bool := Lines.build fun line => bit w (lo + lineIndex line)

/-- Four line bits placed from bit `lo` upward. -/
def placeLines (v : Lines Bool) (lo : Nat) : Word :=
  placeBit v.out0 lo ||| placeBit v.out1 (lo + 1) ||| placeBit v.out2 (lo + 2) ||| placeBit v.out3 (lo + 3)

/-- Whether the line is in FLUSH's mask, bits 3..0 of the argument (section 11.6). -/
def inMask (mask : BitVec 4) (line : Line) : Bool := mask.getLsbD (lineIndex line)

end Sys2Proof.Machine
end

