-- ==== Sys2Proof/Machine/Flags.lean ====
section
/-! DEFINITION. Cause flags, EVENT LEVEL, bus status and IRQ (R113, R171 to R177, R190). -/

namespace Sys2Proof.Machine

/-- R171: a setting event; a flag already set stays set. -/
def State.setFlags (s : State) (f : Flags → Flags) : State := s.setInterrupt { s.interrupt with flags := f s.interrupt.flags }

/-- R75. -/
def State.flagLane (s : State) : State := s.setFlags fun f => { f with lane := true }

/-- R90. -/
def State.flagStall (s : State) : State := s.setFlags fun f => { f with stall := true }

/-- R105. -/
def State.flagOverrun (s : State) : State := s.setFlags fun f => { f with overrun := true }

/-- R126. -/
def State.flagCommit (s : State) : State := s.setFlags fun f => { f with commit := true }

/-- R132. -/
def State.flagMissed (s : State) : State := s.setFlags fun f => { f with missed := true }

/-- R86. -/
def State.flagLimit (s : State) : State := s.setFlags fun f => { f with limit := true }

/-- R172. -/
def State.flagAccess (s : State) : State := s.setFlags fun f => { f with access := true }

/-- R172, R190: setting a bus status bit also sets the ACCESS flag, whether the bit was set or not. -/
def State.setBusStatus (s : State) (f : BusStatus → BusStatus) : State :=
  (s.setWindow { s.window with busStatus := f s.window.busStatus }).flagAccess

/-- A misordered pair access (R187, R189). -/
def State.busOrder (s : State) : State := s.setBusStatus fun b => { b with order := true }

/-- A write of CONFIG-only configuration in RUN (R169). -/
def State.busState (s : State) : State := s.setBusStatus fun b => { b with state := true }

/-- A write refused for its value (R190). -/
def State.busValue (s : State) : State := s.setBusStatus fun b => { b with value := true }

/-- R113: EVENT LEVEL is set while the queue holds at least the threshold. -/
def State.eventLevel (s : State) : Bool := s.queue.threshold ≤ s.queue.records.length

/-- INTFLAG as read (R171, section 11.8). -/
def State.intflag (s : State) : Word :=
  let f := s.interrupt.flags
  placeBit s.eventLevel 0 ||| placeBit f.lane 1 ||| placeBit f.stall 2 ||| placeBit f.overrun 3 ||| placeBit f.commit 4 |||
    placeBit f.missed 5 ||| placeBit f.limit 6 ||| placeBit f.access 7

/-- INTEN as read (R175). -/
def State.inten (s : State) : Word := place s.interrupt.enables 0

/-- R176: IRQ is asserted while some flag is set with its enable also set. -/
def State.irqAsserted (s : State) : Bool := s.intflag &&& s.inten != 0

/-- R173: the flags left by a write of INTFLAG; a one at EVENT LEVEL's position has no effect. -/
def Flags.clearWritten (f : Flags) (w : Word) : Flags :=
  { lane := f.lane && !bit w 1
    stall := f.stall && !bit w 2
    overrun := f.overrun && !bit w 3
    commit := f.commit && !bit w 4
    missed := f.missed && !bit w 5
    limit := f.limit && !bit w 6
    access := f.access && !bit w 7 }

/-- R190: the bus status bits left by a write of BUSSTAT. -/
def BusStatus.clearWritten (b : BusStatus) (w : Word) : BusStatus :=
  { order := b.order && !bit w 0, state := b.state && !bit w 1, value := b.value && !bit w 2 }

/-- BUSSTAT as read (section 11.8). -/
def BusStatus.word (b : BusStatus) : Word := placeBit b.order 0 ||| placeBit b.state 1 ||| placeBit b.value 2

end Sys2Proof.Machine
end

