-- ==== Sys2Proof/Machine/Queue.lean ====
section
/-! DEFINITION. The event queue: the append rule and ACK EVENT, on its own or within an act (R98 to R115). -/

namespace Sys2Proof.Machine

/-- Whether a record is an OVERRUN record. -/
def Record.isOverrun (r : Record) : Bool :=
  match r.body with
  | .overrun _ => true
  | .start _ _ | .stop _ _ _ | .group _ | .lane _ | .stall _ _ | .commit _ _ | .missed _ _ _ _ => false

/-- R104, R105: the count of an OVERRUN record grows by one, saturating. -/
def Record.countDrop (r : Record) : Record :=
  match r.body with
  | .overrun n => { r with body := .overrun (saturatingNext n) }
  | .start _ _ | .stop _ _ _ | .group _ | .lane _ | .stall _ _ | .commit _ _ | .missed _ _ _ _ => r

/-- Whether the queue's tail is an OVERRUN record. -/
def EventQueue.overrunTail (q : EventQueue) : Bool :=
  match q.records.getLast? with
  | some r => r.isOverrun
  | none => false

/-- R99: a record joins at the tail and takes the next record sequence number. -/
def EventQueue.append (q : EventQueue) (body : RecordBody) : EventQueue :=
  { q with records := q.records ++ [{ seq := q.seq, body := body }], seq := q.seq + 1 }

/-- The last record of a list changed by `f`. -/
def changeLast (f : Record → Record) : List Record → List Record
  | [] => []
  | [r] => [f r]
  | r :: r' :: rest => r :: changeLast f (r' :: rest)

/-- R105: whether an offer to this queue is dropped. -/
def EventQueue.drops (q : EventQueue) : Bool := Config.dropThreshold ≤ q.records.length

/-- R105: the append rule. -/
def EventQueue.enqueue (q : EventQueue) (body : RecordBody) : EventQueue :=
  if q.drops then
    if q.overrunTail then { q with records := changeLast Record.countDrop q.records } else q.append (.overrun 1)
  else q.append body

/-! ## ACK EVENTs within an act (R109) -/

/-- R108: an ACK EVENT at the queue, with its result. -/
def EventQueue.acknowledge (q : EventQueue) : EventQueue :=
  match q.records with
  | [] => { q with ackAnswer := .state }
  | _ :: rest => { q with records := rest, ackAnswer := .done }

/-- R109: the ACK EVENTs with no offer before them are taken, and the rest are awaited. -/
def EventQueue.await (q : EventQueue) : List Nat → EventQueue
  | [] => { q with acks := [] }
  | 0 :: rest => q.acknowledge.await rest
  | (n + 1) :: rest => { q with acks := (n + 1) :: rest }

/-- R109: one more offer of the act is behind, or the whole work of one more anchor notice. -/
def EventQueue.passOffer (q : EventQueue) : EventQueue :=
  match q.acks with
  | [] => q
  | n :: rest => q.await ((n - 1) :: rest)

/-- R126: while an anchor notice's work is done no command is taken, so no ACK EVENT of the act is awaited. -/
def EventQueue.hold (q : EventQueue) : EventQueue := { q with acks := [] }

/-- R126: the notice's work is over, and the ACK EVENTs `acks` of the act are awaited again. DESIGN CHOICE (log entry 21): R109 and
R126 disagree on the offers of one notice, and the model follows R126 there: the whole work passes as one offer. -/
def EventQueue.resume (q : EventQueue) (acks : List Nat) : EventQueue := ({ q with acks := acks }).passOffer

/-- R109: the act has ended, and the ACK EVENTs still awaited are taken. -/
def EventQueue.endAct (q : EventQueue) : EventQueue := q.acks.foldl (fun r _ => r.acknowledge) { q with acks := [] }

/-! ## Offers -/

/-- R105, R109: one offer is answered, and then an ACK EVENT that falls right behind it. DESIGN CHOICE (log entry 22): between two
LANE records of one group, and in every other gap of a close outside an anchor notice's work, R109 admits the ACK EVENT, where R66
takes no command between pass 2 and the reports and R174 reads that as an act without interruption; the model follows R109. -/
def EventQueue.offer (q : EventQueue) (body : RecordBody) : EventQueue := (q.enqueue body).passOffer

/-- R105: an offer at the queue; each drop sets the OVERRUN flag. -/
def State.offer (s : State) (body : RecordBody) : State :=
  let t := s.setQueue (s.queue.offer body)
  if s.queue.drops then t.flagOverrun else t

/-- R108: an ACK EVENT on its own: the head removed, or refused STATE when the queue is empty. -/
def State.acknowledge (s : State) : State :=
  match s.queue.records with
  | [] => s.answer 0x0B .state
  | _ :: rest => (s.setQueue { s.queue with records := rest }).answer 0x0B .done

/-- R109: an act begins, with ACK EVENTs to be taken within it. -/
def State.awaitAcks (s : State) (acks : List Nat) : State := s.setQueue (s.queue.await acks)

/-- R109, R157: the act ends, and CMDRES shows the last ACK EVENT's answer. -/
def State.endAct (s : State) : State :=
  let q := s.queue.endAct
  (s.setQueue { q with ackAnswer := .none }).answer 0x0B q.ackAnswer

end Sys2Proof.Machine
end

