-- ==== Sys2Proof/Machine/Armed.lean ====
section
/-! DEFINITION. The armed list and the output lines (R134 to R152): order, insertion, execution, expiry, FLUSH, FORCE and
OUTCFG. -/

namespace Sys2Proof.Machine

/-! ## Output lines -/

/-- Whether an action is a pulse (R134). -/
def Action.isPulse : Action → Bool
  | .pulseHigh | .pulseLow => true
  | .set | .clear | .toggle => false

/-- R138: the latch after an action's phase, from the latch before. For SET, CLEAR and TOGGLE the phase has no effect (R134). -/
def latchAfter (action : Action) (phase : Phase) (before : Bool) : Bool :=
  match action, phase with
  | .set, _ => true
  | .clear, _ => false
  | .toggle, _ => !before
  | .pulseHigh, .leading => true
  | .pulseHigh, .trailing => false
  | .pulseLow, .leading => false
  | .pulseLow, .trailing => true

/-- R138, R144: an action's phase executed on its line's latch. -/
def State.drive (s : State) (line : Line) (action : Action) (phase : Phase) : State :=
  s.setOutput { s.output with latch := s.output.latch.set line (latchAfter action phase (s.output.latch.get line)) }

/-- R147: the level a line's pin shows. -/
def Output.pin (o : Output) (line : Line) : Bool := if o.enable.get line then o.latch.get line else o.safe.get line

/-- R147, R152: the four pins. -/
def Output.pins (o : Output) : Lines Bool := Lines.build o.pin

/-- R148: every latch at its line's safe level. -/
def State.safeLatches (s : State) : State := s.setOutput { s.output with latch := s.output.safe }

/-! ## Order of the armed list -/

/-- R135, key 1: how far an anchor index lies behind the anchor count. -/
def anchorsBehind (count index : Time) : Nat := (count - index).toNat

/-- R135: action `x` stands before action `y`, as seen with anchor count `count`. -/
def standsBefore (count : Time) (x y : ArmedAction) : Bool :=
  if x.due = y.due then
    if x.anchor = y.anchor then x.entry < y.entry
    else anchorsBehind count y.anchor < anchorsBehind count x.anchor
  else notLater x.due y.due

/-- R136: an action is placed before the first held action that it stands before, or at the end. -/
def insertArmed (count : Time) (x : ArmedAction) : List ArmedAction → List ArmedAction
  | [] => [x]
  | y :: rest => if standsBefore count x y then x :: y :: rest else y :: insertArmed count x rest

/-- R136: an action enters the list. -/
def State.arm (s : State) (x : ArmedAction) : State := s.setArmed (insertArmed s.tracker.anchorCount x s.armed)

/-- R136: the list accepts an arming only while it holds fewer than 16 actions. -/
def State.armedFull (s : State) : Bool := Config.maxArmed ≤ s.armed.length

/-! ## Expiry -/

/-- R137: an action is due when its due time is not later than now. -/
def ArmedAction.isDue (x : ArmedAction) (now : Time) : Bool := notLater x.due now

/-- R139: the trailing phase of a pulse whose leading phase expires. -/
def ArmedAction.trailing (x : ArmedAction) : ArmedAction :=
  { x with phase := .trailing, due := x.due + BitVec.ofNat 32 x.width }

/-- R139: a leading pulse phase is followed by its trailing phase. -/
def ArmedAction.continues (x : ArmedAction) : Bool := x.action.isPulse && x.phase = .leading

/-- R137, R139: the head `x` is removed and executed; a leading pulse phase reinserts its trailing phase. -/
def State.expireArmed (s : State) (x : ArmedAction) (rest : List ArmedAction) : State :=
  let t := (s.setArmed rest).drive x.line x.action x.phase
  if x.continues then t.arm x.trailing else t

/-- ARMED_ACTION_EXPIRY (R137): in RUN, the head expires if it is due; otherwise there is no such event (log entry 4). -/
def execArmedActionExpiry (s : State) : Answer :=
  match s.armed with
  | [] => s.accept s
  | x :: rest => s.accept (if s.inRun && x.isDue s.now then s.expireArmed x rest else s)

/-! ## FLUSH, FORCE and OUTCFG -/

/-- FLUSH (R141): bits 3..0 of the argument are the line mask. -/
def execFlush (arg : BitVec 8) (s : State) : Answer :=
  let mask : BitVec 4 := arg.extractLsb' 0 4
  if mask = 0 then s.accept (s.answer 0x06 .arg)
  else s.accept ((s.setArmed (s.armed.filter fun x => !inMask mask x.line)).answer 0x06 .done)

/-- FORCE (R144): bits 1..0 of the argument are the line, bits 6..4 the action code. -/
def execForce (arg : BitVec 8) (s : State) : Answer :=
  let line := lineOfCode (arg.extractLsb' 0 2)
  match actionOfCode (arg.extractLsb' 4 3) with
  | some .set => s.accept ((s.drive line .set .leading).answer 0x07 .done)
  | some .clear => s.accept ((s.drive line .clear .leading).answer 0x07 .done)
  | some .toggle => s.accept ((s.drive line .toggle .leading).answer 0x07 .done)
  | some .pulseHigh | some .pulseLow | none => s.accept (s.answer 0x07 .arg)

/-- OUTCFG_WRITE (R146): enables in bits 3..0, safe levels in bits 7..4, in either part state. -/
def execOutcfgWrite (value : Word) (s : State) : Answer :=
  s.accept (s.setOutput { s.output with enable := linesField value 0, safe := linesField value 4 })

end Sys2Proof.Machine
end

