-- ==== Sys2Proof/Machine/Schedule.lean ====
section
/-! DEFINITION. The schedule banks (R116 to R133): the entry window, commit, and the work of an anchor notice. -/

namespace Sys2Proof.Machine

/-! ## Banks and entries -/

/-- The other bank. -/
def Bank.other : Bank → Bank
  | .a => .b
  | .b => .a

/-- The entries of a bank (R116). -/
def Schedule.entries (c : Schedule) : Bank → List Entry
  | .a => c.bankA
  | .b => c.bankB

/-- A bank's entries replaced. -/
def Schedule.setEntries (c : Schedule) (bank : Bank) (entries : List Entry) : Schedule :=
  match bank with
  | .a => { c with bankA := entries }
  | .b => { c with bankB := entries }

/-- R116: the shadow bank is the one that is not active. -/
def Schedule.shadow (c : Schedule) : Bank := c.active.other

/-- One entry of a bank. Every bank holds twelve (R116), so the default is never met. -/
def Schedule.entry (c : Schedule) (bank : Bank) (index : Nat) : Entry := (c.entries bank).getD index Entry.cleared

/-- R117: the ranges every held entry satisfies (section 7.1). -/
def Entry.inRange (e : Entry) : Bool :=
  e.exponent ≤ 6 && e.phase < 2 ^ e.exponent && 1 ≤ e.width && e.width ≤ 65535 &&
    match e.mode with
    | .ticks => e.delay ≤ 16777215
    | .fraction => e.delay ≤ 4095

/-! ## The staging -/

/-- The staging loaded with an entry's eight fields (R119). -/
def Staging.ofEntry (e : Entry) : Staging :=
  let delay := BitVec.ofNat 24 e.delay
  { enabled := e.enabled, line := e.line, action := actionCode e.action, exponent := BitVec.ofNat 3 e.exponent, mode := e.mode,
    phase := BitVec.ofNat 6 e.phase, delayHigh := delay.extractLsb' 16 8, delayLow := delay.extractLsb' 0 16,
    width := BitVec.ofNat 16 e.width }

/-- The 24-bit delay the staging holds (section 11.7). -/
def Staging.delay (g : Staging) : Nat := (g.delayHigh ++ g.delayLow).toNat

/-- The entry the staging holds, when it passes R120's third check. -/
def Staging.toEntry (g : Staging) : Option Entry :=
  match actionOfCode g.action with
  | none => none
  | some action =>
    let e : Entry :=
      { enabled := g.enabled, line := g.line, action := action, exponent := g.exponent.toNat, phase := g.phase.toNat,
        mode := g.mode, delay := g.delay, width := g.width.toNat }
    if e.inRange then some e else none

/-- R118: a staging word's fields replaced, with no check (layout: section 11.7). -/
def Staging.write (g : Staging) (word : StagingWord) (w : Word) : Staging :=
  match word with
  | .estg0 =>
    { g with
      enabled := bit w 0, line := lineOfCode (field w 1 2), action := field w 4 3, exponent := field w 8 3,
      mode := delayModeOfBit (bit w 11) }
  | .estg1 => { g with phase := field w 0 6, delayHigh := field w 8 8 }
  | .estg2 => { g with delayLow := w }
  | .estg3 => { g with width := w }

/-- R118: a staging word as read (layout: section 11.7). -/
def Staging.read (g : Staging) : StagingWord → Word
  | .estg0 =>
    placeBit g.enabled 0 ||| placeNat (lineIndex g.line) 2 1 ||| place g.action 4 ||| place g.exponent 8 |||
      placeBit (delayModeBit g.mode) 11
  | .estg1 => place g.phase 0 ||| place g.delayHigh 8
  | .estg2 => g.delayLow
  | .estg3 => g.width

/-- STAGING_WRITE (R118). -/
def execStagingWrite (word : StagingWord) (value : Word) (s : State) : Answer :=
  s.accept (s.setSchedule { s.schedule with staging := s.schedule.staging.write word value })

/-! ## The entry window -/

/-- R119, R121: an ECTL write replaces the index, the operation and the result. -/
def Schedule.report (c : Schedule) (operation : BitVec 3) (index : BitVec 4) (result : EntryResult) : Schedule :=
  { c with index := index, operation := operation, entryResult := result }

/-- R119: an index of 0..11 names an entry. -/
def namesEntry (index : BitVec 4) : Bool := index.toNat < Config.bankSize

/-- R119: the staging is loaded with the named entry of a bank, or the operation is refused ARG. -/
def Schedule.load (c : Schedule) (operation : BitVec 3) (bank : Bank) (index : BitVec 4) : Schedule :=
  if namesEntry index then
    { c with staging := Staging.ofEntry (c.entry bank index.toNat) }.report operation index .done
  else c.report operation index .arg

/-- R120: the checks of WRITE in their order, and the copy into the shadow entry. -/
def Schedule.writeEntry (c : Schedule) (index : BitVec 4) : Schedule :=
  if !namesEntry index then c.report 2 index .arg
  else if c.commit = .pending then c.report 2 index .busy
  else
    match c.staging.toEntry with
    | none => c.report 2 index .arg
    | some e => (c.setEntries c.shadow ((c.entries c.shadow).set index.toNat e)).report 2 index .done

/-- READ_SHADOW (R119). -/
def execReadShadow (index : BitVec 4) (s : State) : Answer :=
  s.accept (s.setSchedule (s.schedule.load 0 s.schedule.shadow index))

/-- READ_ACTIVE (R119). -/
def execReadActive (index : BitVec 4) (s : State) : Answer :=
  s.accept (s.setSchedule (s.schedule.load 1 s.schedule.active index))

/-- WRITE (R120). -/
def execWrite (index : BitVec 4) (s : State) : Answer := s.accept (s.setSchedule (s.schedule.writeEntry index))

/-! ## Commit -/

/-- R116, R124, R126: the banks exchange roles, and the commit is made. -/
def Schedule.exchange (c : Schedule) : Schedule := { c with active := c.active.other, commit := .done }

/-- COMMIT (R124): its argument is ignored. -/
def execCommit (_arg : BitVec 8) (s : State) : Answer :=
  match s.command.partState, s.schedule.commit with
  | .config, _ => s.accept ((s.setSchedule s.schedule.exchange).answer 0x04 .done)
  | .run, .pending => s.accept (s.answer 0x04 .busy)
  | .run, .none | .run, .done | .run, .cancelled =>
    s.accept ((s.setSchedule { s.schedule with commit := .pending }).answer 0x04 .pending)

/-- CANCEL_COMMIT (R125): its argument is ignored. -/
def execCancelCommit (_arg : BitVec 8) (s : State) : Answer :=
  match s.schedule.commit with
  | .pending => s.accept ((s.setSchedule { s.schedule with commit := .cancelled }).answer 0x05 .done)
  | .none | .done | .cancelled => s.accept (s.answer 0x05 .state)

/-! ## The anchor notice -/

/-- The anchor notice (R87). -/
structure Notice where
  index : Time
  voted : Time
  period : Option Time
  deriving DecidableEq, Repr

/-- R126 step 1: a pending commit is taken. -/
def State.takeCommit (s : State) (index : Time) : State :=
  if s.schedule.commit = .pending then
    let t := s.setSchedule s.schedule.exchange
    (t.offer (.commit t.schedule.active index)).flagCommit
  else s

/-- R128: an entry is selected at anchor index `n` when it is enabled and n mod 2^k equals its phase. -/
def Entry.selected (e : Entry) (n : Time) : Bool := e.enabled && n.toNat % 2 ^ e.exponent = e.phase

/-- R129: the delay in ticks; none for a FRACTION entry at an anchor with no reference period. -/
def Entry.delayTicks (e : Entry) (period : Option Time) : Option Nat :=
  match e.mode, period with
  | .ticks, _ => some e.delay
  | .fraction, some p => some (e.delay * p.toNat / 1024)
  | .fraction, none => none

/-- R132: a MISSED record is offered, with its flag and its counter. -/
def State.miss (s : State) (entry : Nat) (index : Time) (reason : MissedReason) : State :=
  ((s.offer (.missed entry s.schedule.active index reason)).flagMissed).count
    fun c => { c with missed := saturatingNext c.missed }

/-- R130: the late executes counter advances. -/
def State.countLate (s : State) : State := s.count fun c => { c with lateExecutes := saturatingNext c.lateExecutes }

/-- R130: a late entry under policy EXECUTE. `x` is its action, LEADING, at its due time. -/
def State.executeLate (s : State) (x : ArmedAction) : State :=
  if x.action.isPulse then
    if x.trailing.isDue s.now then
      ((s.drive x.line x.action .leading).drive x.line x.action .trailing).countLate
    else if s.armedFull then s.miss x.entry x.anchor .full
    else ((s.drive x.line x.action .leading).arm x.trailing).countLate
  else (s.drive x.line x.action .leading).countLate

/-- R131: an entry due later than now is inserted, or reported FULL. -/
def State.armLater (s : State) (x : ArmedAction) : State := if s.armedFull then s.miss x.entry x.anchor .full else s.arm x

/-- R130: a late entry is dealt with by the late policy. -/
def State.armLate (s : State) (x : ArmedAction) : State :=
  match s.schedule.latePolicy with
  | .skip => s.miss x.entry x.anchor .late
  | .execute => s.executeLate x

/-- R129, R131: the armed action of a selected entry with its delay. -/
def Entry.armedAction (e : Entry) (i : Nat) (n : Notice) (delay : Nat) : ArmedAction :=
  { entry := i, line := e.line, action := e.action, width := e.width, due := n.voted + BitVec.ofNat 32 delay, phase := .leading,
    anchor := n.index }

/-- R128 to R132: what one entry of the active bank does at an anchor. -/
def State.armEntry (s : State) (n : Notice) (i : Nat) (e : Entry) : State :=
  if e.selected n.index then
    match e.delayTicks n.period with
    | none => s.miss i n.index .noPeriod
    | some delay =>
      let x := e.armedAction i n delay
      if x.isDue s.now then s.armLate x else s.armLater x
  else s

/-- R126 step 2: entries are taken one at a time, in index order from `i`. -/
def State.armEntries (s : State) (n : Notice) (i : Nat) : List Entry → State
  | [] => s
  | e :: rest => (s.armEntry n i e).armEntries n (i + 1) rest

/-- R126: the two steps of an anchor notice's work. -/
def State.workNotice (s : State) (n : Notice) : State :=
  let t := s.takeCommit n.index
  t.armEntries n 0 (t.schedule.entries t.schedule.active)

/-- R126: the work of an anchor notice, within which no command is taken, an ACK EVENT of the same act (R109) included. DESIGN
CHOICE (log entry 21): R109 lets an ACK EVENT fall between any two offers of one act, R126 lets no command fall within a notice's
work, and no ruling settles it; the model follows R126 within the notice and R109 everywhere else. -/
def State.takeNotice (s : State) (n : Notice) : State :=
  let t := (s.setQueue s.queue.hold).workNotice n
  t.setQueue (t.queue.resume s.queue.acks)

end Sys2Proof.Machine
end

