-- ==== Sys2Proof/Machine/Tracker.lean ====
section
/-! DEFINITION. The period tracker (R82 to R97): order, anchors, the limiter, the GROUP record, stall, and the limit and timeout
writes. -/

namespace Sys2Proof.Machine

/-- The vote unit's result for one group (R54). -/
structure VoteResult where
  seq : Word
  reason : CloseReason
  reference : Time
  offsets : Lanes (Option Int)
  voteClass : VoteClass
  votedTime : Option Time
  spread : Option Nat
  assessments : Lanes Assessment
  deriving DecidableEq, Repr

/-- What the tracker finds of a group (R88). -/
structure Findings where
  outOfOrder : Bool
  anchorIndex : Option Time
  rawPeriod : Option Time
  limiter : Option LimiterStatus
  deriving DecidableEq, Repr

/-- R83: the findings of a group that is not tested for order. -/
def Findings.untested : Findings := { outOfOrder := false, anchorIndex := none, rawPeriod := none, limiter := none }

/-- R88: the GROUP record. -/
def VoteResult.record (r : VoteResult) (f : Findings) : RecordBody :=
  .group { seq := r.seq, reason := r.reason, reference := r.reference, offsets := r.offsets, voteClass := r.voteClass,
           votedTime := r.votedTime, spread := r.spread, assessments := r.assessments, outOfOrder := f.outOfOrder,
           anchorIndex := f.anchorIndex, rawPeriod := f.rawPeriod, limiter := f.limiter }

/-! ## Order and anchors -/

/-- R84: a voted time that is not later than the last anchor time held. -/
def Tracker.outOfOrder (t : Tracker) (voted : Time) : Bool :=
  match t.lastAnchor with
  | some last => notLater voted last
  | none => false

/-- R86: the limiter status of a raw period and the clamped period. -/
def Limits.clamp (l : Limits) (raw : Time) : LimiterStatus × Time :=
  if raw.toNat < l.lower.toNat then (.below, l.lower)
  else if l.upper.toNat < raw.toNat then (.above, l.upper)
  else (.within, raw)

/-- R86: the raw period, present when a last anchor time is held. -/
def Tracker.rawPeriod (t : Tracker) (voted : Time) : Option Time := t.lastAnchor.map fun last => voted - last

/-- R86: the limiter status and clamped period of an anchor, present with its raw period. -/
def Tracker.limited (t : Tracker) (l : Limits) (voted : Time) : Option (LimiterStatus × Time) :=
  (t.rawPeriod voted).map l.clamp

/-- R85: the tracker after an anchor. With no last anchor time held, the reference period stays as it stands. -/
def Tracker.anchor (t : Tracker) (l : Limits) (voted : Time) : Tracker :=
  { lastAnchor := some voted
    refPeriod := match t.limited l voted with
      | some (_, period) => some period
      | none => t.refPeriod
    anchorCount := t.anchorCount + 1
    stall := .watching
    origin := voted }

/-- R85, R86: the findings of an anchor. -/
def Tracker.anchorFindings (t : Tracker) (l : Limits) (voted : Time) : Findings :=
  { outOfOrder := false, anchorIndex := some t.anchorCount, rawPeriod := t.rawPeriod voted,
    limiter := (t.limited l voted).map Prod.fst }

/-- R86: an anchor's limiter status sets the LIMIT flag. -/
def offLimits : Option LimiterStatus → Bool
  | some .below | some .above => true
  | some .within | none => false

/-- R84: an out-of-order group is counted and leaves the tracker as it is. -/
def State.trackOutOfOrder (s : State) (r : VoteResult) : State :=
  (s.count fun c => { c with outOfOrder := saturatingNext c.outOfOrder }).offer
    (r.record { Findings.untested with outOfOrder := true })

/-- R85 to R88: an anchor; the GROUP record is offered before the anchor notice is sent. -/
def State.trackAnchor (s : State) (r : VoteResult) (voted : Time) : State :=
  let before := s.tracker
  let findings := before.anchorFindings s.limits voted
  let t := s.setTracker (before.anchor s.limits voted)
  let t := if offLimits findings.limiter then t.flagLimit else t
  (t.offer (r.record findings)).takeNotice { index := before.anchorCount, voted := voted, period := t.tracker.refPeriod }

/-- R83: the tracker takes a vote result. -/
def State.track (s : State) (r : VoteResult) : State :=
  match r.reason, r.votedTime with
  | .stopped, _ => s.offer (r.record .untested)
  | .complete, none | .expired, none | .evicted, none => s.offer (r.record .untested)
  | .complete, some voted | .expired, some voted | .evicted, some voted =>
    if s.tracker.outOfOrder voted then s.trackOutOfOrder r else s.trackAnchor r voted

/-! ## Stall -/

/-- R89: the tracker's expiry is due. -/
def State.stallDue (s : State) : Bool :=
  s.inRun && s.tracker.stall = .watching && s.limits.timeout.toNat ≤ elapsed s.tracker.origin s.now

/-- R90: the tracker expires. -/
def State.expireStall (s : State) : State :=
  ((s.offer (.stall s.now s.tracker.lastAnchor)).flagStall).setTracker
    { s.tracker with lastAnchor := none, refPeriod := none, stall := .stalled }

/-- STALL_EXPIRY (R89): if the expiry is due it is taken; otherwise there is no such event (log entry 4). -/
def execStallExpiry (s : State) : Answer := s.accept (if s.stallDue then s.expireStall else s)

/-! ## Limits and timeout -/

/-- R94: a held reference period is brought between the limits. -/
def Tracker.reclamp (t : Tracker) (l : Limits) : Tracker := { t with refPeriod := t.refPeriod.map fun p => (l.clamp p).2 }

/-- R94: new limits act at once on a held reference period. -/
def State.takeLimits (s : State) (l : Limits) : State := (s.setLimits l).setTracker (s.tracker.reclamp l)

/-- A completed 32-bit write of PMIN (R93, R94). -/
def State.writePmin (s : State) (v : Time) : State :=
  let l := { s.limits with lower := v }
  if s.inRun then
    if 1 ≤ v.toNat && v.toNat < l.upper.toNat then s.takeLimits l else s.busValue
  else s.setLimits l

/-- A completed 32-bit write of PMAX (R93, R94). -/
def State.writePmax (s : State) (v : Time) : State :=
  let l := { s.limits with upper := v }
  if s.inRun then
    if l.lower.toNat < v.toNat && v.toNat < Config.periodBound then s.takeLimits l else s.busValue
  else s.setLimits l

/-- R93, R95, R158: the range a run needs of S, for a group window `w` and settle allowance `d`. -/
def timeoutInRange (timeout : Time) (w d : Nat) : Bool :=
  2 * (w + d) < timeout.toNat && timeout.toNat < Config.timeoutBound

/-- A completed 32-bit write of STALLTO (R93, R95); an expiry it makes due is taken within the write. -/
def State.writeStallto (s : State) (v : Time) : State :=
  let t := s.setLimits { s.limits with timeout := v }
  if s.inRun then
    if timeoutInRange v s.table.window s.table.settle then (if t.stallDue then t.expireStall else t) else s.busValue
  else t

end Sys2Proof.Machine
end

