-- ==== Sys2Proof/Machine/Vote.lean ====
section
/-! DEFINITION. The vote unit (R41 to R58): roles, voted offset, class, assessments and the vote counters. -/

namespace Sys2Proof.Machine

/-- A closed group as the group table hands it over (R35). -/
structure ClosedGroup where
  seq : Word
  reason : CloseReason
  reference : Time
  members : Lanes (Option Time)
  deriving DecidableEq, Repr

/-- What the vote unit works from (R41): the member offsets and the lane states at close, and VOTECFG. -/
structure Ballot where
  offsets : Lanes (Option Int)
  states : Lanes LaneState
  config : VoteConfig
  deriving DecidableEq, Repr

/-- R44: the signed offset of a member stamped `t` from the reference time `r`. -/
def memberOffset (r t : Time) : Int := (t - r).toInt

/-- R44: the offsets of a group's members. -/
def ClosedGroup.offsets (g : ClosedGroup) : Lanes (Option Int) := g.members.map fun m => m.map (memberOffset g.reference)

/-- R42: the offset of a lane's member when its role is voter. -/
def Ballot.voterOffset (b : Ballot) (lane : Lane) : Option Int :=
  if (b.states.get lane).votes then b.offsets.get lane else none

/-- R42: the offset of a lane's member when its role is observer. -/
def Ballot.observerOffset (b : Ballot) (lane : Lane) : Option Int :=
  if (b.states.get lane).observes then b.offsets.get lane else none

/-- The offsets of the voters, in lane order. -/
def Ballot.voters (b : Ballot) : List Int := Lane.all.filterMap b.voterOffset

/-- The offsets of the observers, in lane order. -/
def Ballot.observers (b : Ballot) : List Int := Lane.all.filterMap b.observerOffset

/-- R45: the value that stands in the middle of three. -/
def median (x y z : Int) : Int := max (min x y) (min (max x y) z)

/-- What the vote settles (section 3.2.2). -/
structure Verdict where
  voteClass : VoteClass
  offset : Option Int
  spread : Option Nat
  deriving DecidableEq, Repr

/-- R47, R48: a group with no voted time. -/
def Verdict.unvoted : Verdict := { voteClass := .unvoted, offset := none, spread := none }

/-- R45: three voters. -/
def Verdict.full (x y z : Int) : Verdict :=
  { voteClass := .full, offset := some (median x y z), spread := some (max (max x y) z - min (min x y) z).toNat }

/-- R46: two voters; half the difference is rounded down. -/
def Verdict.two (tolerance : Nat) (x y : Int) : Verdict :=
  let spread := (max x y - min x y).toNat
  { voteClass := if spread ≤ tolerance then .pair else .split
    offset := some (min x y + (spread / 2 : Nat))
    spread := some spread }

/-- R47: one voter with the single-lane option on. -/
def Verdict.degraded (x : Int) : Verdict := { voteClass := .degraded, offset := some x, spread := some 0 }

/-- R45 to R48: the number of voters decides. -/
def Ballot.verdict (b : Ballot) : Verdict :=
  match b.voters with
  | [x, y, z] => .full x y z
  | [x, y] => .two b.config.tolerance x y
  | [x] => if b.config.singleLane then .degraded x else .unvoted
  | _ => .unvoted

/-- The distance of two offsets. -/
def distance (x y : Int) : Nat := (x - y).natAbs

/-- R53: a voter at `x` against the other voter at `y`, by their distance from the observer at `o`. -/
def tieBreak (x y o : Int) : Assessment :=
  if distance x o = distance y o then .neutral
  else if distance y o < distance x o then .deviant
  else .good

/-- R53: the other voter's offset, of two. -/
def Ballot.otherVoter (b : Ballot) (lane : Lane) : Option Int :=
  (Lane.all.filterMap fun l => if l = lane then none else b.voterOffset l).head?

/-- R52, R53: the assessment of a voter at `x` of a SPLIT group. -/
def Ballot.splitVoter (b : Ballot) (lane : Lane) (x : Int) : Assessment :=
  match b.otherVoter lane, b.observers with
  | some y, o :: _ => tieBreak x y o
  | some _, [] | none, _ => .neutral

/-- R51: a lane absent from the group. -/
def Ballot.absent (b : Ballot) : Assessment := if b.voters.isEmpty then .neutral else .missing

/-- R51: a member at `m` against the voted offset `v`. -/
def Ballot.against (b : Ballot) (m v : Int) : Assessment := if b.config.tolerance < distance m v then .deviant else .good

/-- R50: the assessment of one lane, decided by the first case that applies. IDLE never meets the vote unit (R42) and is
treated as OFF. -/
def Ballot.assess (b : Ballot) (reason : CloseReason) (lane : Lane) : Assessment :=
  if reason = .stopped then .neutral
  else if !(b.states.get lane).waits then .neutral
  else
    match b.offsets.get lane, b.verdict.offset with
    | none, _ => b.absent
    | some _, none => .neutral
    | some m, some v =>
      if b.verdict.voteClass = .split && (b.states.get lane).votes then b.splitVoter lane m else b.against m v

/-- The ballot of a closed group (R41, R42): lane states are read as they stand now. -/
def State.ballot (s : State) (g : ClosedGroup) : Ballot :=
  { offsets := g.offsets, states := s.health.map HealthRecord.state, config := s.vote }

/-- R44, R54: the result handed on. -/
def State.voteOn (s : State) (g : ClosedGroup) : VoteResult :=
  let b := s.ballot g
  let v := b.verdict
  { seq := g.seq, reason := g.reason, reference := g.reference, offsets := b.offsets, voteClass := v.voteClass,
    votedTime := v.offset.map fun x => g.reference + BitVec.ofInt 32 x, spread := v.spread,
    assessments := Lanes.build (b.assess g.reason) }

/-- R56: groups unvoted and groups split, of groups not STOPPED. -/
def Counters.countClass (c : Counters) (r : VoteResult) : Counters :=
  match r.reason, r.voteClass with
  | .stopped, _ => c
  | .complete, .unvoted | .expired, .unvoted | .evicted, .unvoted => { c with unvoted := saturatingNext c.unvoted }
  | .complete, .split | .expired, .split | .evicted, .split => { c with split := saturatingNext c.split }
  | .complete, .full | .expired, .full | .evicted, .full | .complete, .pair | .expired, .pair | .evicted, .pair
  | .complete, .degraded | .expired, .degraded | .evicted, .degraded => c

/-- R57: a lane's charge counters. -/
def LaneCounters.charge (c : LaneCounters) : Assessment → LaneCounters
  | .deviant => { c with deviant := saturatingNext c.deviant }
  | .missing => { c with missing := saturatingNext c.missing }
  | .good | .neutral => c

/-- R57: every lane's charges for one group. -/
def Counters.charge (c : Counters) (r : VoteResult) : Counters :=
  { c with lanes := Lanes.build fun l => (c.lanes.get l).charge (r.assessments.get l) }

/-- R56, R57: the counters a vote result advances. -/
def State.countVote (s : State) (r : VoteResult) : State := s.count fun c => (c.countClass r).charge r

end Sys2Proof.Machine
end

