-- ==== Sys2Proof/Machine/Health.lean ====
section
/-! DEFINITION. The health monitor's assessment of a closed group (R66 to R75). -/

namespace Sys2Proof.Machine

/-! ## Pass 1 -/

/-- R67: the score of a voting lane after its assessment. -/
def scoreAfter (c : HealthConfig) (score : Nat) : Assessment → Nat
  | .good => score - 1
  | .deviant => min Config.maxScore (score + c.deviantWeight)
  | .missing => min Config.maxScore (score + c.missWeight)
  | .neutral => score

/-- R68: the state of a voting lane from its new score. -/
def votingStateAfter (c : HealthConfig) (score : Nat) : LaneState → LaneState
  | .active => if c.suspect ≤ score then .suspect else .active
  | .suspect => if score = 0 then .active else .suspect
  | .idle => .idle
  | .off => .off
  | .probation => .probation
  | .excluded => .excluded

/-- R67, R68: pass 1 of a lane in ACTIVE or SUSPECT; NEUTRAL leaves score and state as they were. -/
def passOneVoting (c : HealthConfig) (a : Assessment) (h : HealthRecord) : HealthRecord :=
  if a = .neutral then h
  else
    let score := scoreAfter c h.score a
    { h with score := score, state := votingStateAfter c score h.state }

/-- R69: pass 1 of a lane in PROBATION. -/
def passOneProbation (c : HealthConfig) (a : Assessment) (h : HealthRecord) : HealthRecord :=
  match a with
  | .good =>
    let run := min Config.maxGoodRun (h.goodRun + 1)
    if run = c.probation then .fresh .active else { h with goodRun := run }
  | .deviant | .missing => { h with state := .excluded, goodRun := 0 }
  | .neutral => h

/-- R70: pass 1 of a lane in EXCLUDED. -/
def passOneExcluded (c : HealthConfig) (a : Assessment) (h : HealthRecord) : HealthRecord :=
  match a with
  | .good =>
    let run := min Config.maxGoodRun (h.goodRun + 1)
    if c.autoReadmit && run = c.readmit then .fresh .probation else { h with goodRun := run }
  | .deviant | .missing => { h with goodRun := 0 }
  | .neutral => h

/-- R67 to R70: pass 1 of one lane. -/
def passOne (c : HealthConfig) (a : Assessment) (h : HealthRecord) : HealthRecord :=
  match h.state with
  | .active | .suspect => passOneVoting c a h
  | .probation => passOneProbation c a h
  | .excluded => passOneExcluded c a h
  | .idle | .off => h

/-! ## Pass 2 -/

/-- R71: an over-limit lane is a voting lane whose score is at or above Te. -/
def HealthRecord.overLimit (te : Nat) (h : HealthRecord) : Bool := h.state.votes && te ≤ h.score

/-- R71: a lane is excluded with good-run count 0 and its score kept. -/
def HealthRecord.exclude (h : HealthRecord) : HealthRecord := { h with state := .excluded, goodRun := 0 }

/-- R71: the better of a lane kept so far and the next voting lane: the lower score, or the lane taken first. -/
def betterKeeper (hs : Lanes HealthRecord) (kept : Option Lane) (lane : Lane) : Option Lane :=
  if (hs.get lane).state.votes then
    match kept with
    | none => some lane
    | some k => if (hs.get lane).score < (hs.get k).score then some lane else some k
  else kept

/-- R71: the voting lane with the lowest score, or, among equals, the lowest index. -/
def keeper (hs : Lanes HealthRecord) : Option Lane := Lane.all.foldl (betterKeeper hs) none

/-- R71: which lane, if any, is kept although over the limit: the keeper, when every voting lane is over the limit. -/
def keptLane (te : Nat) (hs : Lanes HealthRecord) : Option Lane :=
  if Lane.any fun l => (hs.get l).state.votes && !(hs.get l).overLimit te then none else keeper hs

/-- R71, R72: pass 2 of one lane, given the lane that is kept. -/
def passTwoLane (te : Nat) (kept : Option Lane) (lane : Lane) (h : HealthRecord) : HealthRecord :=
  if h.overLimit te then (if kept = some lane then { h with mark := true } else h.exclude) else h

/-- R72: at the end of pass 2 the mark is cleared on a lane that no longer qualifies. -/
def HealthRecord.settleMark (te : Nat) (h : HealthRecord) : HealthRecord := { h with mark := h.mark && h.overLimit te }

/-- R71, R72: pass 2 over all lanes. -/
def passTwo (te : Nat) (hs : Lanes HealthRecord) : Lanes HealthRecord :=
  let kept := keptLane te hs
  Lanes.build fun l => (passTwoLane te kept l (hs.get l)).settleMark te

/-- R66: both passes. -/
def assessLanes (c : HealthConfig) (as : Lanes Assessment) (hs : Lanes HealthRecord) : Lanes HealthRecord :=
  passTwo c.exclude (Lanes.build fun l => passOne c (as.get l) (hs.get l))

/-! ## Reporting -/

/-- R74, R75: a lane state change is reported with a LANE record and the LANE flag. -/
def State.reportLane (s : State) (f : LaneFields) : State := (s.offer (.lane f)).flagLane

/-- R73: the report of one lane after an assessment, if its state differs from its old state. -/
def State.reportAssessed (s : State) (seq : Word) (old : LaneState) (lane : Lane) : State :=
  let h := s.health.get lane
  if h.state = old then s
  else s.reportLane { lane := lane, old := old, new := h.state, cause := .assessment, score := h.score, groupSeq := some seq }

/-- R66, R73: the health monitor takes a vote result: both passes, then the reports in lane order. Nothing is taken between the passes
or between pass 2 and the first report. DESIGN CHOICE (log entry 22): an ACK EVENT of the act may be taken behind each report, as R109
says, where R174 reads R66 as taking nothing between two LANE records of one group. -/
def State.assess (s : State) (r : VoteResult) : State :=
  let old := s.health.map HealthRecord.state
  let t := s.setHealth (assessLanes s.healthConfig r.assessments s.health)
  ((t.reportAssessed r.seq old.a .a).reportAssessed r.seq old.b .b).reportAssessed r.seq old.c .c

end Sys2Proof.Machine
end

