-- ==== Sys2Proof/Machine/Groups.lean ====
section
/-! DEFINITION. The group table (R17 to R40): placing an arrival, completion, expiry, eviction, and the act of closing. -/

namespace Sys2Proof.Machine

/-! ## Closing a group -/

/-- R39: the close counters; STOPPED advances none. -/
def Counters.countClose (c : Counters) : CloseReason → Counters
  | .complete => { c with complete := saturatingNext c.complete }
  | .expired => { c with expired := saturatingNext c.expired }
  | .evicted => { c with evicted := saturatingNext c.evicted }
  | .stopped => c

/-- R34, R39: a close takes the next group sequence number and is counted. -/
def State.takeNumber (s : State) (reason : CloseReason) : State :=
  (s.setTable { s.table with seq := s.table.seq + 1 }).count fun c => c.countClose reason

/-- R54: the vote unit's result goes to the health monitor, then to the period tracker. -/
def State.handOn (s : State) (r : VoteResult) : State := ((s.countVote r).assess r).track r

/-- R34, R35, R41: the act of closing a group that has left the table. -/
def State.closeGroup (s : State) (reason : CloseReason) (g : OpenGroup) : State :=
  let closed : ClosedGroup := { seq := s.table.seq, reason := reason, reference := g.reference, members := g.members }
  (s.takeNumber reason).handOn (s.voteOn closed)

/-- The open groups replaced. -/
def State.setGroups (s : State) (groups : List OpenGroup) : State := s.setTable { s.table with groups := groups }

/-- R35: several groups closed in one act, one at a time in the order given. -/
def State.closeGroups (s : State) (reason : CloseReason) : List OpenGroup → State
  | [] => s
  | g :: rest => (s.closeGroup reason g).closeGroups reason rest

/-! ## Placing an arrival -/

/-- R18: a timestamp is within the window of a reference time. -/
def withinWindow (window : Nat) (t r : Time) : Bool := (t - r).toNat ≤ window || (r - t).toNat ≤ window

/-- R22: a candidate group of an arrival. -/
def OpenGroup.candidate (window : Nat) (lane : Lane) (t : Time) (g : OpenGroup) : Bool :=
  (g.members.get lane).isNone && withinWindow window t g.reference

/-- R22: a group joined by an arrival. -/
def OpenGroup.join (g : OpenGroup) (lane : Lane) (t : Time) : OpenGroup := { g with members := g.members.set lane (some t) }

/-- R20, R23: a group opened by an arrival. -/
def GroupTable.opened (table : GroupTable) (lane : Lane) (t : Time) : OpenGroup :=
  { reference := t, members := Lanes.set { a := none, b := none, c := none } lane (some t),
    deadline := t + BitVec.ofNat 32 (table.window + table.settle) }

/-- R25: a group is complete when it holds a member from every lane in the waiting set. -/
def OpenGroup.complete (states : Lanes LaneState) (g : OpenGroup) : Bool :=
  Lane.every fun l => !(states.get l).waits || (g.members.get l).isSome

/-- The lane states as they stand. -/
def State.laneStates (s : State) : Lanes LaneState := s.health.map HealthRecord.state

/-- R22: the groups before the oldest candidate, the candidate, and those after it. -/
def splitCandidate (window : Nat) (lane : Lane) (t : Time) :
    List OpenGroup → Option (List OpenGroup × OpenGroup × List OpenGroup)
  | [] => none
  | g :: rest =>
    if g.candidate window lane t then some ([], g, rest)
    else (splitCandidate window lane t rest).map fun (before, c, after) => (g :: before, c, after)

/-- R25: a placed group stays in its place, or leaves the table and closes COMPLETE. -/
def State.settlePlaced (s : State) (before : List OpenGroup) (g : OpenGroup) (after : List OpenGroup) : State :=
  if g.complete s.laneStates then (s.setGroups (before ++ after)).closeGroup .complete g
  else s.setGroups (before ++ g :: after)

/-- R24: with four groups open the oldest leaves the table and closes EVICTED. -/
def State.makeRoom (s : State) : State :=
  match s.table.groups with
  | [] => s
  | oldest :: rest =>
    if Config.maxGroups ≤ s.table.groups.length then (s.setGroups rest).closeGroup .evicted oldest else s

/-- R23, R24: an arrival with no candidate opens a group, after an eviction if the table is full. -/
def State.openGroup (s : State) (lane : Lane) (t : Time) : State :=
  let u := s.makeRoom
  u.settlePlaced u.table.groups (u.table.opened lane t) []

/-- R22 to R25: the table takes an arrival. -/
def State.takeArrival (s : State) (lane : Lane) (t : Time) : State :=
  match splitCandidate s.table.window lane t s.table.groups with
  | some (before, g, after) => s.settlePlaced before (g.join lane t) after
  | none => s.openGroup lane t

/-- R22: an arrival presented on its own. None comes in CONFIG or from a lane that is not sampled (R5, R153), and the edge a front
end holds as its last accepted one has been delivered already, within its sample (R13; log entry 2). -/
def State.arrive (s : State) (lane : Lane) (stamp : Time) : State :=
  if s.samples lane && (s.frontEnds.get lane).lastAccepted ≠ some stamp then s.takeArrival lane stamp else s

/-- ARRIVAL (R22). -/
def execArrival (lane : Lane) (stamp : Time) (s : State) : Answer := s.accept (s.arrive lane stamp)

/-! ## Expiry -/

/-- R28: the open group of a rank, 1 the oldest. -/
def State.groupOfRank (s : State) (rank : Nat) : Option OpenGroup :=
  if rank = 0 then none else s.table.groups[rank - 1]?

/-- R28: a group is due to expire when the timebase is later than its deadline. -/
def OpenGroup.isDue (g : OpenGroup) (now : Time) : Bool := later now g.deadline

/-- R28: the group of a rank leaves the table and closes EXPIRED. -/
def State.expireGroup (s : State) (rank : Nat) (g : OpenGroup) : State :=
  (s.setGroups (s.table.groups.eraseIdx (rank - 1))).closeGroup .expired g

/-- R28: in RUN, the group of a rank expires if it is due; otherwise there is no such event (log entries 4 and 5). -/
def State.expireRank (s : State) (rank : Nat) : State :=
  match s.groupOfRank rank with
  | some g => if s.inRun && g.isDue s.now then s.expireGroup rank g else s
  | none => s

/-- GROUP_EXPIRY (R28). -/
def execGroupExpiry (rank : Nat) (s : State) : Answer := s.accept (s.expireRank rank)

/-! ## A smaller waiting set -/

/-- R30: after a lane has become OFF, every open group is tested, oldest first, and the complete ones close. -/
def State.closeComplete (s : State) : State :=
  let done := fun (g : OpenGroup) => g.complete s.laneStates
  (s.setGroups (s.table.groups.filter fun g => !done g)).closeGroups .complete (s.table.groups.filter done)

end Sys2Proof.Machine
end

