-- ==== Sys2Proof/Machine/LaneInputs.lean ====
section
/-! DEFINITION. The timebase and the lane front ends (R2 to R16): the tick, the sample with its filter, polarity and blanking
stages, the delivery of an arrival, and the lane and prescale registers. -/

namespace Sys2Proof.Machine

/-! ## Timebase -/

/-- R5: at a tick every sampled lane has a sample to take. -/
def State.dueSamples (s : State) : Lanes FrontEnd :=
  Lanes.build fun l => { s.frontEnds.get l with sampleDue := s.samples l }

/-- TIMEBASE_ADVANCE (R2): the counter advances by one, in CONFIG as in RUN; the samples of the new tick are due (R5). -/
def execTimebaseAdvance (s : State) : Answer :=
  s.accept ((s.setTimebase { s.timebase with now := s.timebase.now + 1, divisionFrom := .advance }).setFrontEnds s.dueSamples)

/-- R169: a write of CONFIG-only configuration in RUN is ignored and sets STATE; in CONFIG it is taken by its own rule. -/
def State.configOnly (s : State) (write : State) : State := if s.inRun then s.busState else write

/-- PRESCALE_WRITE (R3, R169): every accepted write restarts the division. -/
def execPrescaleWrite (value : Word) (s : State) : Answer :=
  s.accept (s.configOnly
    (if value.toNat ≤ 7 then s.setTimebase { s.timebase with prescale := value.setWidth 3, divisionFrom := .restart }
     else s.busValue))

/-! ## Sample: the filter -/

/-- What the filter step passes on (R8, R9). -/
inductive Filtered where
  | quiet | glitch | confirmed (stamp : Time)
  deriving DecidableEq, Repr

/-- R8: the candidate run after a differing sample at tick `now`. -/
def FrontEnd.lengthen (fe : FrontEnd) (now : Time) : CandidateRun :=
  match fe.run with
  | none => { length := 1, start := now }
  | some run => { run with length := run.length + 1 }

/-- R8, R9: the filter step of one sample. -/
def FrontEnd.filter (fe : FrontEnd) (length : Nat) (now : Time) (sample : Bool) : FrontEnd × Filtered :=
  if sample = fe.level then
    match fe.run with
    | none => (fe, .quiet)
    | some _ => ({ fe with run := none }, .glitch)
  else
    let run := fe.lengthen now
    if run.length = length then ({ fe with level := sample, run := none }, .confirmed run.start)
    else ({ fe with run := some run }, .quiet)

/-! ## Sample: polarity and blanking -/

/-- R10: whether a confirmed transition to `level` becomes a candidate edge. -/
def Polarity.selects (p : Polarity) (level : Bool) : Bool :=
  match p with
  | .rising => level
  | .falling => !level
  | .both => true

/-- R11: whether a candidate edge stamped `t` is blanked. -/
def FrontEnd.blanks (fe : FrontEnd) (blanking : Word) (t : Time) : Bool :=
  match fe.lastAccepted with
  | some last => elapsed last t < blanking.toNat
  | none => false

/-- R11, R13: an accepted edge is counted, kept as the last one and delivered, all within the sample. -/
def State.acceptEdge (s : State) (lane : Lane) (t : Time) : State :=
  ((s.updateFrontEnd lane fun fe => { fe with lastAccepted := some t }).countLane lane
    fun c => { c with accepted := saturatingNext c.accepted }).takeArrival lane t

/-- R10, R11: a confirmed transition goes through the polarity test and the blanking test. -/
def State.confirmEdge (s : State) (lane : Lane) (level : Bool) (t : Time) : State :=
  let config := s.laneConfig.get lane
  if config.polarity.selects level then
    if (s.frontEnds.get lane).blanks config.blanking t then
      s.countLane lane fun c => { c with blanked := saturatingNext c.blanked }
    else s.acceptEdge lane t
  else s

/-- R5, R8 to R13: one sample, dealt with whole. -/
def State.takeSample (s : State) (lane : Lane) (sample : Bool) : State :=
  let (fe, outcome) := (s.frontEnds.get lane).filter (s.laneConfig.get lane).filter s.now sample
  let t := s.updateFrontEnd lane fun _ => { fe with sampleDue := false }
  match outcome with
  | .quiet => t
  | .glitch => t.countLane lane fun c => { c with glitches := saturatingNext c.glitches }
  | .confirmed stamp => t.confirmEdge lane sample stamp

/-- R5, R6: a sample is taken by a lane that is sampled and has not taken this tick's sample (log entry 3). -/
def State.samplePending (s : State) (lane : Lane) : Bool := s.samples lane && (s.frontEnds.get lane).sampleDue

/-- The pin of a lane shows `level` (log entry 1). -/
def State.showLevel (s : State) (lane : Lane) (level : Bool) : State := s.setLanePins (s.lanePins.set lane level)

/-- R8: the lane takes its sample if one is due. -/
def State.sampleLane (s : State) (lane : Lane) (level : Bool) : State :=
  if s.samplePending lane then s.takeSample lane level else s

/-- LANE_SAMPLE (R8): the pin's level is its own while RESET is asserted too. -/
def execLaneSample (lane : Lane) (level : Bool) (s : State) : Answer :=
  let t := s.showLevel lane level
  t.accept (t.sampleLane lane level)

/-- LAST_ACCEPTED_DISCARD (R12): at the tick that lies 65,552 ticks after the last accepted edge time, that time becomes
absent; at any other there is no such event (log entry 4). -/
def execLastAcceptedDiscard (lane : Lane) (s : State) : Answer :=
  match (s.frontEnds.get lane).lastAccepted with
  | some last =>
    s.accept (if elapsed last s.now = Config.acceptedLifetime then
             s.updateFrontEnd lane fun fe => { fe with lastAccepted := none } else s)
  | none => s.accept s

/-! ## Starting and stopping a front end -/

/-- R6: a front end is initialised from its pin; its first sample is the next tick's. -/
def FrontEnd.initial (level : Bool) : FrontEnd := { level := level, run := none, lastAccepted := none, sampleDue := false }

/-- R7: every front end stops. -/
def State.stopFrontEnds (s : State) : State := s.setFrontEnds (Lanes.build fun _ => .stopped)

/-! ## Lane configuration -/

/-- R14: the filter length 1..16 that a write of LCFGx may carry. -/
def filterInRange (f : Nat) : Bool := 1 ≤ f && f ≤ 16

/-- LCFG_WRITE (R14, R169): enable in bit 0, polarity in bits 2..1, F in bits 8..4; refused as a whole. -/
def execLcfgWrite (lane : Lane) (value : Word) (s : State) : Answer :=
  s.accept (s.configOnly
    (match polarityOfCode (field value 1 2) with
     | none => s.busValue
     | some polarity =>
       if filterInRange (fieldNat value 4 5) then
         s.setLaneConfig (s.laneConfig.update lane fun c =>
           { c with enable := bit value 0, polarity := polarity, filter := fieldNat value 4 5 })
       else s.busValue))

/-- BLANK_WRITE (R14, R169): every value is a valid interval. -/
def execBlankWrite (lane : Lane) (value : Word) (s : State) : Answer :=
  s.accept (s.configOnly (s.setLaneConfig (s.laneConfig.update lane fun c => { c with blanking := value })))

end Sys2Proof.Machine
end

