-- ==== Sys2Proof/Machine/Acknowledge.lean ====
section
/-! DEFINITION. ACK_EVENT (R108), on its own or within the act of an event of its tick (R109). -/

namespace Sys2Proof.Machine

/-- What an event presents at the pins, RESET asserted or not (log entry 1). -/
def State.present (s : State) : TickEvent → State
  | .sample lane level => s.showLevel lane level
  | .arrival _ _ | .groupExpiry _ => s

/-- The act of an event. -/
def State.act (s : State) : TickEvent → State
  | .sample lane level => s.sampleLane lane level
  | .arrival lane stamp => s.arrive lane stamp
  | .groupExpiry rank => s.expireRank rank

/-- R109: an event's act with ACK EVENTs of its tick before, between and after its offers, but for the offers of one anchor notice
(R126, log entry 21). -/
def State.actWithAcks (s : State) (place : AckPlace) : State :=
  ((s.awaitAcks (place.after :: place.further)).act place.event).endAct

/-- ACK_EVENT (R108, R109): its argument is ignored. An act of the command unit offers its records within one event of a write of
CMD (R155), so only the events of the field and of time have an ACK EVENT within their act (log entry 20). -/
def execAckEvent (_arg : BitVec 8) (s : State) (during : Option AckPlace := none) : Answer :=
  match during with
  | none => s.accept s.acknowledge
  | some place =>
    let t := s.present place.event
    t.accept (t.actWithAcks place)

end Sys2Proof.Machine
end

