-- ==== Sys2Proof/Machine/RunControl.lean ====
section
/-! DEFINITION. The commands that move the part between its states (R153 to R168), the lane commands (R76 to R79), and SNAPSHOT
and CLEAR COUNTERS (R179, R181). -/

namespace Sys2Proof.Machine

/-! ## START -/

/-- R19, R159: the largest filter length of the three lanes, less one, enabled or not. -/
def settleAllowance (c : Lanes LaneConfig) : Nat := max (max c.a.filter c.b.filter) c.c.filter - 1

/-- R158, check 1. -/
def State.someLaneEnabled (s : State) : Bool := Lane.any fun l => (s.laneConfig.get l).enable

/-- R158, check 3: the limits a run needs. -/
def Limits.inRange (l : Limits) : Bool :=
  1 ≤ l.lower.toNat && l.lower.toNat < l.upper.toNat && l.upper.toNat < Config.periodBound

/-- R158: the number of the first check that fails, or 0. -/
def State.startError (s : State) : Nat :=
  if !s.someLaneEnabled then 1
  else if s.table.window = 0 then 2
  else if !s.limits.inRange then 3
  else if !timeoutInRange s.limits.timeout s.table.window (settleAllowance s.laneConfig) then 4
  else if s.healthConfig.exclude < s.healthConfig.suspect then 5
  else if s.table.window < s.vote.tolerance then 6
  else 0

/-- R61: the state START gives a lane by its enable. -/
def startState (enable : Bool) : LaneState := if enable then .active else .off

/-- R6: START initialises the front end of each lane it makes ACTIVE. -/
def State.startFrontEnds (s : State) : Lanes FrontEnd :=
  Lanes.build fun l => if (s.laneConfig.get l).enable then .initial (s.lanePins.get l) else .stopped

/-- R61: the lane states START gives. -/
def State.startStates (s : State) : Lanes LaneState := s.laneConfig.map fun c => startState c.enable

/-- R160: every block set up for the run, the START record offered, RUN entered. -/
def State.startRun (s : State) : State :=
  let states := s.startStates
  let t := s.setTable { s.table with groups := [], seq := 0, settle := settleAllowance s.laneConfig }
  let t := (t.setHealth (states.map HealthRecord.fresh)).setFrontEnds s.startFrontEnds
  let t := t.setTracker (.cleared 0 s.now)
  let t := (t.setArmed []).offer (.start s.now states)
  t.setCommand { t.command with partState := .run }

/-- START (R158 to R161): its argument is ignored. -/
def execStart (_arg : BitVec 8) (s : State) : Answer :=
  if s.inRun then s.accept (s.answer 0x01 .state)
  else if s.startError = 0 then s.accept (s.startRun.answer 0x01 .done)
  else s.accept (s.answer 0x01 .arg s.startError)

/-! ## STOP -/

/-- R162 step 1: every open group leaves the table and closes STOPPED, oldest first. -/
def State.stopGroups (s : State) : State := (s.setGroups []).closeGroups .stopped s.table.groups

/-- R162 step 4: a pending commit is withdrawn. -/
def Schedule.withdraw (c : Schedule) : Schedule := if c.commit = .pending then { c with commit := .cancelled } else c

/-- R62: every lane IDLE. -/
def idleLanes : Lanes HealthRecord := Lanes.build fun _ => .fresh .idle

/-- R162: the steps of STOP in their order. -/
def State.stopRun (s : State) : State :=
  let flushed := s.table.groups.length
  let t := s.stopGroups
  let discarded := t.armed.length
  let t := (t.setArmed []).safeLatches
  let t := t.setSchedule t.schedule.withdraw
  let t := (t.setHealth idleLanes).stopFrontEnds
  let t := t.setTracker (.cleared t.tracker.anchorCount 0)
  let t := t.offer (.stop s.now flushed discarded)
  t.setCommand { t.command with partState := .config, entryCause := .stop }

/-- STOP (R162 to R164): its argument is ignored. -/
def execStop (_arg : BitVec 8) (s : State) : Answer :=
  if s.inRun then s.accept (s.stopRun.answer 0x02 .done) else s.accept (s.answer 0x02 .state)

/-! ## SOFT RESET and hard reset -/

/-- R165: what SOFT RESET sets of the schedule banks. -/
def Schedule.softReset (c : Schedule) : Schedule :=
  { c with commit := .none, staging := .cleared, index := 0, operation := 0, entryResult := .none }

/-- R165: what SOFT RESET sets of the register window. -/
def RegisterWindow.softReset (w : RegisterWindow) : RegisterWindow :=
  { w with readValue := 0, readTag := none, writeValue := 0, writeTag := none, busStatus := .clear }

/-- R165: SOFT RESET discards all dynamic state and keeps the configuration (R166), the active bank as it stands when the command is
taken. DESIGN CHOICE (log entry 19): an anchor taken first with a commit PENDING has exchanged the banks, and stays so, where R167
calls the state left the same in either order. -/
def State.softReset (s : State) : State :=
  let t := s.setTable { s.table with groups := [], seq := 0, settle := 0 }
  let t := (t.setHealth idleLanes).stopFrontEnds
  let t := (t.setTracker (.cleared 0 0)).setArmed []
  let t := t.safeLatches
  let t := t.setSchedule t.schedule.softReset
  let t := t.setQueue { t.queue with records := [], seq := 0 }
  let t := t.setStats { live := .zero, bank := .zero, time := 0, taken := false }
  let t := t.setInterrupt { t.interrupt with flags := .clear }
  let t := t.setWindow t.window.softReset
  t.setCommand { partState := .config, entryCause := .soft, code := 0, result := .none, startError := 0 }

/-- SOFT_RESET (R165): in either part state, never refused; its argument is ignored. -/
def execSoftReset (_arg : BitVec 8) (s : State) : Answer := s.accept s.softReset

/-- HARD_RESET (R168): every block at its hard-reset value, with RESET still asserted or released. The lane pins are inputs and the
waiting commands are the sender's, so both stay (log entry 10). DESIGN CHOICE (log entry 18): the lane enables and the health
configuration take their reset values by R14, R63 to R65 and R168, where R62 says that hard reset changes neither. -/
def execHardReset (s : State) (held : Bool := false) : Answer :=
  .next (((State.reset.setResetAsserted held).setLanePins s.lanePins).setPending s.pending)

/-! ## Lane commands -/

/-- R77, R78, R79: a lane changes state by command: fresh record in the new state, LANE record, LANE flag. -/
def State.commandLane (s : State) (lane : Lane) (new : LaneState) (cause : LaneCause) : State :=
  (s.setLaneHealth lane (.fresh new)).reportLane
    { lane := lane, old := (s.health.get lane).state, new := new, cause := cause, score := 0, groupSeq := none }

/-- R77: LANE ENABLE accepted in RUN. -/
def State.enableLane (s : State) (lane : Lane) : State :=
  ((s.setLaneEnable lane true).updateFrontEnd lane fun _ => .initial (s.lanePins.get lane)).commandLane lane .probation .enable

/-- R78: LANE DISABLE accepted in RUN; the LANE record is appended before the groups are tested (R30). -/
def State.disableLane (s : State) (lane : Lane) : State :=
  (((s.setLaneEnable lane false).updateFrontEnd lane fun _ => .stopped).commandLane lane .off .disable).closeComplete

/-- R78: another lane is also voting. -/
def State.otherVotes (s : State) (lane : Lane) : Bool := Lane.any fun l => l ≠ lane && (s.health.get l).state.votes

/-- R78: whether LANE DISABLE is accepted in RUN. -/
def State.mayDisable (s : State) (lane : Lane) : Bool :=
  match (s.health.get lane).state with
  | .probation | .excluded => true
  | .active | .suspect => s.otherVotes lane
  | .off | .idle => false

/-- The lane a lane command's argument names (R76, section 11.6). -/
def laneOfArg (arg : BitVec 8) : Option Lane := laneOfCode (arg.extractLsb' 0 2)

/-- LANE_ENABLE (R76, R77). -/
def execLaneEnable (arg : BitVec 8) (s : State) : Answer :=
  match laneOfArg arg with
  | none => s.accept (s.answer 0x08 .arg)
  | some lane =>
    if !s.inRun then s.accept ((s.setLaneEnable lane true).answer 0x08 .done)
    else if (s.health.get lane).state = .off then s.accept ((s.enableLane lane).answer 0x08 .done)
    else s.accept (s.answer 0x08 .state)

/-- LANE_DISABLE (R76, R78). -/
def execLaneDisable (arg : BitVec 8) (s : State) : Answer :=
  match laneOfArg arg with
  | none => s.accept (s.answer 0x09 .arg)
  | some lane =>
    if !s.inRun then s.accept ((s.setLaneEnable lane false).answer 0x09 .done)
    else if s.mayDisable lane then s.accept ((s.disableLane lane).answer 0x09 .done)
    else s.accept (s.answer 0x09 .state)

/-- LANE_READMIT (R76, R79). -/
def execLaneReadmit (arg : BitVec 8) (s : State) : Answer :=
  match laneOfArg arg with
  | none => s.accept (s.answer 0x0A .arg)
  | some lane =>
    if s.inRun && (s.health.get lane).state = .excluded then
      s.accept ((s.commandLane lane .probation .readmit).answer 0x0A .done)
    else s.accept (s.answer 0x0A .state)

/-! ## Statistics commands -/

/-- SNAPSHOT (R179): its argument is ignored. -/
def execSnapshot (_arg : BitVec 8) (s : State) : Answer :=
  s.accept ((s.setStats { s.stats with bank := s.stats.live, time := s.now, taken := true }).answer 0x0C .done)

/-- CLEAR_COUNTERS (R181): its argument is ignored. -/
def execClearCounters (_arg : BitVec 8) (s : State) : Answer :=
  s.accept ((s.setStats { s.stats with live := .zero }).answer 0x0D .done)

end Sys2Proof.Machine
end

