-- ==== Sys2Proof/Machine/Registers.lean ====
section
/-! DEFINITION. The remaining register writes: GWIN, VOTECFG, HWEIGHT, HLEVEL, HRUN, QTHR and SCHCFG, which are CONFIG-only
(R169), and INTEN, INTFLAG and BUSSTAT. -/

namespace Sys2Proof.Machine

/-- GWIN_WRITE (R21, R169). -/
def execGwinWrite (value : Word) (s : State) : Answer :=
  s.accept (s.configOnly
    (if value.toNat ≤ Config.maxWindow then s.setTable { s.table with window := value.toNat } else s.busValue))

/-- VOTECFG_WRITE (R49, R169): T in bits 14..0, the single-lane option in bit 15. -/
def execVotecfgWrite (value : Word) (s : State) : Answer :=
  s.accept (s.configOnly (s.setVote { tolerance := fieldNat value 0 15, singleLane := bit value 15 }))

/-- HWEIGHT_WRITE (R63, R169): Wm in bits 3..0, Wd in bits 7..4, auto-readmit in bit 8; refused if a weight is 0. -/
def execHweightWrite (value : Word) (s : State) : Answer :=
  let wm := fieldNat value 0 4
  let wd := fieldNat value 4 4
  s.accept (s.configOnly
    (if wm = 0 || wd = 0 then s.busValue
     else s.setHealthConfig { s.healthConfig with missWeight := wm, deviantWeight := wd, autoReadmit := bit value 8 }))

/-- HLEVEL_WRITE (R64, R169): Ts in bits 5..0, Te in bits 13..8; refused if either is 0. -/
def execHlevelWrite (value : Word) (s : State) : Answer :=
  let ts := fieldNat value 0 6
  let te := fieldNat value 8 6
  s.accept (s.configOnly
    (if ts = 0 || te = 0 then s.busValue else s.setHealthConfig { s.healthConfig with suspect := ts, exclude := te }))

/-- HRUN_WRITE (R65, R169): Np in bits 7..0, Nr in bits 15..8; refused if either is 0. -/
def execHrunWrite (value : Word) (s : State) : Answer :=
  let np := fieldNat value 0 8
  let nr := fieldNat value 8 8
  s.accept (s.configOnly
    (if np = 0 || nr = 0 then s.busValue else s.setHealthConfig { s.healthConfig with probation := np, readmit := nr }))

/-- QTHR_WRITE (R114, R169): 1..32; EVENT LEVEL follows the threshold (R113). -/
def execQthrWrite (value : Word) (s : State) : Answer :=
  s.accept (s.configOnly
    (if 1 ≤ value.toNat && value.toNat ≤ Config.maxRecords then s.setQueue { s.queue with threshold := value.toNat }
     else s.busValue))

/-- SCHCFG_WRITE (R122, R169): the late policy in bit 0. -/
def execSchcfgWrite (value : Word) (s : State) : Answer :=
  s.accept (s.configOnly (s.setSchedule { s.schedule with latePolicy := latePolicyOfBit (bit value 0) }))

/-- INTEN_WRITE (R175): all eight enables, in either part state. -/
def execIntenWrite (value : Word) (s : State) : Answer :=
  s.accept (s.setInterrupt { s.interrupt with enables := field value 0 8 })

/-- INTFLAG_WRITE (R173): in either part state. -/
def execIntflagWrite (value : Word) (s : State) : Answer := s.accept (s.setFlags fun f => f.clearWritten value)

/-- BUSSTAT_WRITE (R190): in either part state; the ACCESS flag stays as it is (R172). -/
def execBusstatWrite (value : Word) (s : State) : Answer :=
  s.accept (s.setWindow { s.window with busStatus := s.window.busStatus.clearWritten value })

end Sys2Proof.Machine
end

