-- ==== Sys2Proof/Machine/Window.lean ====
section
/-! DEFINITION. The register window (R183 to R192): what every location reads, the record window, the 32-bit pairs with their
holds, and a write to any address. -/

namespace Sys2Proof.Machine

/-! ## The record window (R110, R192, section 11.9) -/

/-- The kind codes of REC0. -/
def RecordBody.kindCode : RecordBody → BitVec 4
  | .start _ _ => 1
  | .stop _ _ _ => 2
  | .group _ => 3
  | .lane _ => 4
  | .stall _ _ => 5
  | .commit _ _ => 6
  | .missed _ _ _ _ => 7
  | .overrun _ => 8

/-- REC0 beyond the kind: the assessments of a GROUP record. -/
def RecordBody.word0 (r : RecordBody) : Word :=
  match r with
  | .group g =>
    place (assessmentCode g.assessments.a) 4 ||| place (assessmentCode g.assessments.b) 6 |||
      place (assessmentCode g.assessments.c) 8
  | .start _ _ | .stop _ _ _ | .lane _ | .stall _ _ | .commit _ _ | .missed _ _ _ _ | .overrun _ => 0

/-- REC2. -/
def RecordBody.word2 (r : RecordBody) : Word :=
  match r with
  | .start _ states =>
    place (laneStateCode states.a) 0 ||| place (laneStateCode states.b) 3 ||| place (laneStateCode states.c) 6
  | .stop _ flushed _ => BitVec.ofNat 16 flushed
  | .group g => g.seq
  | .lane l => l.groupSeq.getD 0
  | .commit bank _ => placeBit (bankBit bank) 0
  | .missed entry bank _ reason => placeNat entry 4 0 ||| placeBit (bankBit bank) 4 ||| place (missedReasonCode reason) 5
  | .overrun dropped => dropped
  | .stall _ _ => 0

/-- REC3. -/
def RecordBody.word3 (r : RecordBody) : Word :=
  match r with
  | .stop _ _ discarded => BitVec.ofNat 16 discarded
  | .group g =>
    place (closeReasonCode g.reason) 0 ||| place (voteClassCode g.voteClass) 2 ||| placeBit g.outOfOrder 5 |||
      place (limiterCode g.limiter) 6 ||| placeBit g.offsets.a.isSome 8 ||| placeBit g.offsets.b.isSome 9 |||
      placeBit g.offsets.c.isSome 10 ||| placeBit g.votedTime.isSome 11 ||| placeBit g.anchorIndex.isSome 12 |||
      placeBit g.rawPeriod.isSome 13
  | .lane l =>
    place (laneCode l.lane) 0 ||| place (laneStateCode l.old) 2 ||| place (laneStateCode l.new) 5 |||
      place (laneCauseCode l.cause) 8 ||| placeBit l.groupSeq.isSome 10
  | .stall _ last => placeBit last.isSome 0
  | .start _ _ | .commit _ _ | .missed _ _ _ _ | .overrun _ => 0

/-- REC4 and REC5. -/
def RecordBody.pair4 (r : RecordBody) : Time :=
  match r with
  | .start time _ | .stop time _ _ => time
  | .group g => g.reference
  | .stall expiry _ => expiry
  | .lane _ | .commit _ _ | .missed _ _ _ _ | .overrun _ => 0

/-- REC6 and REC7. -/
def RecordBody.pair6 (r : RecordBody) : Time :=
  match r with
  | .group g => g.votedTime.getD 0
  | .stall _ last => last.getD 0
  | .start _ _ | .stop _ _ _ | .lane _ | .commit _ _ | .missed _ _ _ _ | .overrun _ => 0

/-- REC8 and REC9: the anchor index, whatever the kind. -/
def RecordBody.pair8 (r : RecordBody) : Time :=
  match r with
  | .group g => g.anchorIndex.getD 0
  | .commit _ anchor | .missed _ _ anchor _ => anchor
  | .start _ _ | .stop _ _ _ | .lane _ | .stall _ _ | .overrun _ => 0

/-- REC10 and REC11. -/
def RecordBody.pair10 (r : RecordBody) : Time :=
  match r with
  | .group g => g.rawPeriod.getD 0
  | .start _ _ | .stop _ _ _ | .lane _ | .stall _ _ | .commit _ _ | .missed _ _ _ _ | .overrun _ => 0

/-- A member offset as a word, two's complement; an absent one reads 0. -/
def offsetWord (offset : Option Int) : Word := BitVec.ofInt 16 (offset.getD 0)

/-- REC12 to REC15, by their place from 12. -/
def RecordBody.tailWord (r : RecordBody) (i : Nat) : Word :=
  match r, i with
  | .group g, 0 => offsetWord g.offsets.a
  | .group g, 1 => offsetWord g.offsets.b
  | .group g, 2 => offsetWord g.offsets.c
  | .group g, _ => BitVec.ofNat 16 (g.spread.getD 0)
  | .lane l, 0 => BitVec.ofNat 16 l.score
  | .lane _, _ | .start _ _, _ | .stop _ _ _, _ | .stall _ _, _ | .commit _ _, _ | .missed _ _ _ _, _ | .overrun _, _ => 0

/-- Word `i` of the record window for a record (R192). -/
def Record.windowWord (r : Record) (i : Nat) : Word :=
  match i with
  | 0 => place r.body.kindCode 0 ||| r.body.word0
  | 1 => r.seq
  | 2 => r.body.word2
  | 3 => r.body.word3
  | 4 => lowWord r.body.pair4
  | 5 => highWord r.body.pair4
  | 6 => lowWord r.body.pair6
  | 7 => highWord r.body.pair6
  | 8 => lowWord r.body.pair8
  | 9 => highWord r.body.pair8
  | 10 => lowWord r.body.pair10
  | 11 => highWord r.body.pair10
  | i => r.body.tailWord (i - 12)

/-- R110: the window presents the head; with the queue empty every word reads 0, and the kind NONE is 0. -/
def State.recordWord (s : State) (i : Nat) : Word :=
  match s.queue.records with
  | [] => 0
  | head :: _ => head.windowWord i

/-- R185: a 32-bit field of the head, or 0 when the head has none there or the queue is empty. -/
def State.recordPair (s : State) (f : RecordBody → Time) : Time :=
  match s.queue.records with
  | [] => 0
  | head :: _ => f head.body

/-! ## Status registers (section 11.8) -/

/-- R81: a HEALTH pair: state, mark and score in the low word, the good-run count in the high word. -/
def HealthRecord.pairValue (h : HealthRecord) : Time :=
  joinWords (placeNat h.goodRun 8 0) (place (laneStateCode h.state) 0 ||| placeBit h.mark 7 ||| placeNat h.score 6 8)

/-- R15: one lane's filtered level and sampling indication, in LEVELS from bit `lo`. -/
def State.laneLevels (s : State) (lane : Lane) (lo : Nat) : Word :=
  if s.samples lane then placeBit (s.frontEnds.get lane).level lo ||| placeBit true (lo + 1) else 0

/-- R14: LCFGx as read. -/
def LaneConfig.word (c : LaneConfig) : Word := placeBit c.enable 0 ||| place (polarityCode c.polarity) 1 ||| placeNat c.filter 5 4

/-- R151: whether the list holds an action for a line. -/
def State.lineArmed (s : State) (line : Line) : Bool := s.armed.any fun x => x.line = line

/-- R151: the due time of the head, 0 while the list is empty. -/
def State.armedNext (s : State) : Time :=
  match s.armed with
  | [] => 0
  | x :: _ => x.due

/-- R180: the counter of index `i` of a bank, in the order of section 10.4. -/
def Counters.word (c : Counters) (i : Nat) : Word :=
  let lane (l : LaneCounters) (k : Nat) : Word :=
    match k with
    | 0 => l.accepted
    | 1 => l.glitches
    | 2 => l.blanked
    | 3 => l.deviant
    | _ => l.missing
  if i < 5 then lane c.lanes.a i
  else if i < 10 then lane c.lanes.b (i - 5)
  else if i < 15 then lane c.lanes.c (i - 10)
  else
    match i - 15 with
    | 0 => c.complete
    | 1 => c.expired
    | 2 => c.evicted
    | 3 => c.unvoted
    | 4 => c.split
    | 5 => c.outOfOrder
    | 6 => c.lateExecutes
    | _ => c.missed

/-- The 32-bit value a pair shows (R4, R81, R93, R97, R111, R151, R180, R185). -/
def State.pairValue (s : State) : Pair → Time
  | .tbase => s.now
  | .healthA => s.health.a.pairValue
  | .healthB => s.health.b.pairValue
  | .healthC => s.health.c.pairValue
  | .pmin => s.limits.lower
  | .pmax => s.limits.upper
  | .stallto => s.limits.timeout
  | .lastanc => s.tracker.lastAnchor.getD 0
  | .refper => s.tracker.refPeriod.getD 0
  | .anccnt => s.tracker.anchorCount
  | .armnext => s.armedNext
  | .snaptime => s.stats.time
  | .rec4 => s.recordPair RecordBody.pair4
  | .rec6 => s.recordPair RecordBody.pair6
  | .rec8 => s.recordPair RecordBody.pair8
  | .rec10 => s.recordPair RecordBody.pair10

/-- RUNSTAT (R154). -/
def CommandUnit.runstat (c : CommandUnit) : Word := placeBit (partStateBit c.partState) 0 ||| place (entryCauseCode c.entryCause) 1

/-- CMDRES (R157, section 11.6). -/
def CommandUnit.cmdres (c : CommandUnit) : Word := place c.code 8 ||| place (resultCode c.result) 4 ||| placeNat c.startError 4 0

/-- ECTL (R119, section 11.7). -/
def Schedule.ectl (c : Schedule) : Word := place c.index 0 ||| place c.operation 4

/-- The live value of a single-word location (R183); a pair's word, an unassigned address and CMD are not among these. -/
def State.singleWord (s : State) (address : Address) : Word :=
  match address.toNat with
  | 0x00 => s.command.runstat
  | 0x02 => s.command.cmdres
  | 0x03 => s.window.busStatus.word
  | 0x04 => s.intflag
  | 0x05 => s.inten
  | 0x06 => place s.timebase.prescale 0
  | 0x0A => s.laneConfig.a.word
  | 0x0B => s.laneConfig.b.word
  | 0x0C => s.laneConfig.c.word
  | 0x0D => s.laneConfig.a.blanking
  | 0x0E => s.laneConfig.b.blanking
  | 0x0F => s.laneConfig.c.blanking
  | 0x10 => s.laneLevels .a 0 ||| s.laneLevels .b 2 ||| s.laneLevels .c 4
  | 0x11 => BitVec.ofNat 16 s.table.window
  | 0x12 => placeNat s.vote.tolerance 15 0 ||| placeBit s.vote.singleLane 15
  | 0x13 => placeNat s.table.groups.length 3 0 ||| placeNat s.table.settle 4 8
  | 0x14 => s.table.seq
  | 0x15 =>
    placeNat s.healthConfig.missWeight 4 0 ||| placeNat s.healthConfig.deviantWeight 4 4 |||
      placeBit s.healthConfig.autoReadmit 8
  | 0x16 => placeNat s.healthConfig.suspect 6 0 ||| placeNat s.healthConfig.exclude 6 8
  | 0x17 => placeNat s.healthConfig.probation 8 0 ||| placeNat s.healthConfig.readmit 8 8
  | 0x1E =>
    placeBit (s.tracker.stall = .stalled) 0 ||| placeBit s.tracker.lastAnchor.isSome 1 |||
      placeBit s.tracker.refPeriod.isSome 2
  | 0x2C => placeNat s.queue.records.length 6 0
  | 0x2D => s.queue.seq
  | 0x2E => BitVec.ofNat 16 s.queue.threshold
  | 0x40 => s.schedule.staging.read .estg0
  | 0x41 => s.schedule.staging.read .estg1
  | 0x42 => s.schedule.staging.read .estg2
  | 0x43 => s.schedule.staging.read .estg3
  | 0x44 => s.schedule.ectl
  | 0x45 => s.schedule.ectl ||| place (entryResultCode s.schedule.entryResult) 8
  | 0x46 => placeBit (latePolicyBit s.schedule.latePolicy) 0
  | 0x47 => place (commitCode s.schedule.commit) 0 ||| placeBit (bankBit s.schedule.active) 4
  | 0x48 => placeLines s.output.enable 0 ||| placeLines s.output.safe 4
  | 0x49 => placeLines s.output.latch 0 ||| placeLines s.output.pins 4
  | 0x4A =>
    placeNat s.armed.length 5 0 ||| placeBit (s.lineArmed .out0) 8 ||| placeBit (s.lineArmed .out1) 9 |||
      placeBit (s.lineArmed .out2) 10 ||| placeBit (s.lineArmed .out3) 11
  | 0x4E => placeBit s.stats.taken 0
  | n =>
    if 0x30 ≤ n && n ≤ 0x3F then s.recordWord (n - 0x30)
    else if 0x52 ≤ n && n ≤ 0x68 then s.stats.bank.word (n - 0x52)
    else 0

/-- R183: the live value of any location: CMD and unassigned addresses read 0. -/
def State.liveWord (s : State) (address : Address) : Word :=
  match pairAt address with
  | some (pair, false) => lowWord (s.pairValue pair)
  | some (pair, true) => highWord (s.pairValue pair)
  | none => s.singleWord address

/-! ## Reads of a pair -/

/-- PAIR_LOW_READ (R186): the live low word is returned, the live high word is captured with the pair's tag. -/
def execPairLowRead (pair : Pair) (s : State) : Answer :=
  s.accept (s.setWindow
    { s.window with readValue := highWord (s.pairValue pair), readTag := some pair, readData := lowWord (s.pairValue pair) })

/-- PAIR_HIGH_READ (R187): the held value with a matching tag; otherwise the live high word, and ORDER. -/
def execPairHighRead (pair : Pair) (s : State) : Answer :=
  if s.window.readTag = some pair then
    s.accept (s.setWindow { s.window with readTag := none, readData := s.window.readValue })
  else s.accept ((s.setWindow { s.window with readData := highWord (s.pairValue pair) }).busOrder)

/-- R183, R186, R187: the word a read of an address returns. -/
def State.readAddress (s : State) (address : Address) : Word :=
  match pairAt address with
  | some (pair, true) => if s.window.readTag = some pair then s.window.readValue else highWord (s.pairValue pair)
  | some (_, false) | none => s.liveWord address

/-! ## The pins the part drives -/

/-- R168, R183, R193: what the part drives on the data lines: the word read, during a read access that is taken; otherwise it leaves
them undriven. -/
def State.dataBus (s : State) (pins : BusPins) : Option Word :=
  if pins.reads && !s.resetAsserted then some (s.readAddress pins.address) else none

/-- R147: the level an output pin shows. -/
def State.linePin (s : State) (line : Line) : Bool := !s.resetAsserted && s.output.pin line

/-! ## Writes of a pair -/

/-- PAIR_HIGH_WRITE (R188): the write hold takes the value and the pair's tag. -/
def execPairHighWrite (pair : WritablePair) (value : Word) (s : State) : Answer :=
  s.accept (s.setWindow { s.window with writeValue := value, writeTag := some pair })

/-- R189: a completed 32-bit write, by its register's own rule. -/
def State.writePair (s : State) : WritablePair → Time → State
  | .pmin, v => s.writePmin v
  | .pmax, v => s.writePmax v
  | .stallto, v => s.writeStallto v

/-- PAIR_LOW_WRITE (R189): the held high word and the written low word, with a matching tag; otherwise ORDER. -/
def execPairLowWrite (pair : WritablePair) (value : Word) (s : State) : Answer :=
  if s.window.writeTag = some pair then
    s.accept ((s.setWindow { s.window with writeTag := none }).writePair pair (joinWords s.window.writeValue value))
  else s.accept s.busOrder

/-! ## A write to any address -/

/-- R155, R184: the command a word write makes, carried out. The commands that no word write makes stand for no access here. -/
def takeWrite (i : Instr) (s : State) : Answer :=
  match i with
  | .start arg => execStart arg s
  | .stop arg => execStop arg s
  | .softReset arg => execSoftReset arg s
  | .commit arg => execCommit arg s
  | .cancelCommit arg => execCancelCommit arg s
  | .flush arg => execFlush arg s
  | .force arg => execForce arg s
  | .laneEnable arg => execLaneEnable arg s
  | .laneDisable arg => execLaneDisable arg s
  | .laneReadmit arg => execLaneReadmit arg s
  | .ackEvent arg during => execAckEvent arg s during
  | .snapshot arg => execSnapshot arg s
  | .clearCounters arg => execClearCounters arg s
  | .illegal code _ => s.accept (s.answer code .illegal)
  | .readShadow index => execReadShadow index s
  | .readActive index => execReadActive index s
  | .write index => execWrite index s
  | .unknownOperation operation index => s.accept (s.setSchedule (s.schedule.report operation index .arg))
  | .stagingWrite word value => execStagingWrite word value s
  | .prescaleWrite value => execPrescaleWrite value s
  | .lcfgWrite lane value => execLcfgWrite lane value s
  | .blankWrite lane value => execBlankWrite lane value s
  | .gwinWrite value => execGwinWrite value s
  | .votecfgWrite value => execVotecfgWrite value s
  | .hweightWrite value => execHweightWrite value s
  | .hlevelWrite value => execHlevelWrite value s
  | .hrunWrite value => execHrunWrite value s
  | .qthrWrite value => execQthrWrite value s
  | .schcfgWrite value => execSchcfgWrite value s
  | .outcfgWrite value => execOutcfgWrite value s
  | .intenWrite value => execIntenWrite value s
  | .intflagWrite value => execIntflagWrite value s
  | .busstatWrite value => execBusstatWrite value s
  | .pairHighWrite pair value => execPairHighWrite pair value s
  | .pairLowWrite pair value => execPairLowWrite pair value s
  | .registerWrite _ _ => s.accept s
  | .hardReset _ | .laneSample _ _ | .lastAcceptedDiscard _ | .arrival _ _ | .groupExpiry _ | .stallExpiry
  | .armedActionExpiry | .pairLowRead _ | .pairHighRead _ | .timebaseAdvance => s.accept s

/-- ILLEGAL (R155): a code that names no command changes nothing but CMDRES (R157). A code that does name one is the
command word of that command (log entry 11). -/
def execIllegal (code arg : BitVec 8) (s : State) : Answer := takeWrite (commandOfCode code arg) s

/-- UNKNOWN_OPERATION (R119): refused with entry status ARG. A known operation code is that operation (log entry 11). -/
def execUnknownOperation (operation : BitVec 3) (index : BitVec 4) (s : State) : Answer :=
  takeWrite (commandOfOperation operation index) s

/-- REGISTER_WRITE (R184): a write to a read-only location or an unassigned address is ignored. A writable address is a write
of that location (log entry 11). -/
def execRegisterWrite (address : Address) (value : Word) (s : State) : Answer := takeWrite (commandOfWrite address value) s

end Sys2Proof.Machine
end

