-- ==== Sys2Proof/Machine/Dispatch.lean ====
section
/-! DEFINITION. One arm per command: each calls its meaning. -/

namespace Sys2Proof.Machine

def exec (i : Instr) (s : State) : Host.Outcome State Fault Refusal :=
  match i with
  | .hardReset held => Sys2Proof.Machine.execHardReset s held
  | .laneSample lane level => Sys2Proof.Machine.execLaneSample lane level s
  | .lastAcceptedDiscard lane => Sys2Proof.Machine.execLastAcceptedDiscard lane s
  | .arrival lane stamp => Sys2Proof.Machine.execArrival lane stamp s
  | .groupExpiry rank => Sys2Proof.Machine.execGroupExpiry rank s
  | .stallExpiry => Sys2Proof.Machine.execStallExpiry s
  | .armedActionExpiry => Sys2Proof.Machine.execArmedActionExpiry s
  | .start arg => Sys2Proof.Machine.execStart arg s
  | .stop arg => Sys2Proof.Machine.execStop arg s
  | .softReset arg => Sys2Proof.Machine.execSoftReset arg s
  | .commit arg => Sys2Proof.Machine.execCommit arg s
  | .cancelCommit arg => Sys2Proof.Machine.execCancelCommit arg s
  | .flush arg => Sys2Proof.Machine.execFlush arg s
  | .force arg => Sys2Proof.Machine.execForce arg s
  | .laneEnable arg => Sys2Proof.Machine.execLaneEnable arg s
  | .laneDisable arg => Sys2Proof.Machine.execLaneDisable arg s
  | .laneReadmit arg => Sys2Proof.Machine.execLaneReadmit arg s
  | .ackEvent arg during => Sys2Proof.Machine.execAckEvent arg s during
  | .snapshot arg => Sys2Proof.Machine.execSnapshot arg s
  | .clearCounters arg => Sys2Proof.Machine.execClearCounters arg s
  | .illegal code arg => Sys2Proof.Machine.execIllegal code arg s
  | .readShadow index => Sys2Proof.Machine.execReadShadow index s
  | .readActive index => Sys2Proof.Machine.execReadActive index s
  | .write index => Sys2Proof.Machine.execWrite index s
  | .unknownOperation operation index => Sys2Proof.Machine.execUnknownOperation operation index s
  | .stagingWrite word value => Sys2Proof.Machine.execStagingWrite word value s
  | .prescaleWrite value => Sys2Proof.Machine.execPrescaleWrite value s
  | .lcfgWrite lane value => Sys2Proof.Machine.execLcfgWrite lane value s
  | .blankWrite lane value => Sys2Proof.Machine.execBlankWrite lane value s
  | .gwinWrite value => Sys2Proof.Machine.execGwinWrite value s
  | .votecfgWrite value => Sys2Proof.Machine.execVotecfgWrite value s
  | .hweightWrite value => Sys2Proof.Machine.execHweightWrite value s
  | .hlevelWrite value => Sys2Proof.Machine.execHlevelWrite value s
  | .hrunWrite value => Sys2Proof.Machine.execHrunWrite value s
  | .qthrWrite value => Sys2Proof.Machine.execQthrWrite value s
  | .schcfgWrite value => Sys2Proof.Machine.execSchcfgWrite value s
  | .outcfgWrite value => Sys2Proof.Machine.execOutcfgWrite value s
  | .intenWrite value => Sys2Proof.Machine.execIntenWrite value s
  | .intflagWrite value => Sys2Proof.Machine.execIntflagWrite value s
  | .busstatWrite value => Sys2Proof.Machine.execBusstatWrite value s
  | .pairHighWrite pair value => Sys2Proof.Machine.execPairHighWrite pair value s
  | .pairLowWrite pair value => Sys2Proof.Machine.execPairLowWrite pair value s
  | .pairLowRead pair => Sys2Proof.Machine.execPairLowRead pair s
  | .pairHighRead pair => Sys2Proof.Machine.execPairHighRead pair s
  | .registerWrite address value => Sys2Proof.Machine.execRegisterWrite address value s
  | .timebaseAdvance => Sys2Proof.Machine.execTimebaseAdvance s

end Sys2Proof.Machine
end

