-- ==== Sys2Proof/Machine/Step.lean ====
section
/-! DEFINITION. One step: the command at the front of the queue is taken, and carried out with the queue's rest. -/

namespace Sys2Proof.Machine

/-- One step. On an empty queue the block idles (log entry 7). -/
def step (s : State) : Host.Outcome State Fault Refusal :=
  match s.pending with
  | [] => .next s
  | command :: rest => exec command (s.setPending rest)

/-- The state with the command a table word spells at the front of its queue; no row gives bits, so no word spells one
(log entry 15). -/
def State.withFetchWord (s : State) (nbits w : Nat) : State :=
  match decodeTableWord nbits w with
  | some command => s.setPending (command :: s.pending)
  | none => s

end Sys2Proof.Machine
end

