-- ==== Sys2Proof/Safety.lean ====
section
/-! DEFINITION. The invariants of the part, block by block, and their conjunction. -/

namespace Sys2Proof.Machine

/-- The ranges of the settings (R14, R19, R21, R49, R63, R64, R65, R114). -/
structure SettingsInv (s : State) : Prop where
  filter : ∀ l, 1 ≤ (s.laneConfig.get l).filter ∧ (s.laneConfig.get l).filter ≤ 16
  settle : s.table.settle ≤ 15
  window : s.table.window ≤ 32767
  tolerance : s.vote.tolerance ≤ 32767
  missWeight : 1 ≤ s.healthConfig.missWeight ∧ s.healthConfig.missWeight ≤ 15
  deviantWeight : 1 ≤ s.healthConfig.deviantWeight ∧ s.healthConfig.deviantWeight ≤ 15
  suspect : 1 ≤ s.healthConfig.suspect ∧ s.healthConfig.suspect ≤ 63
  exclude : 1 ≤ s.healthConfig.exclude ∧ s.healthConfig.exclude ≤ 63
  probation : 1 ≤ s.healthConfig.probation ∧ s.healthConfig.probation ≤ 255
  readmit : 1 ≤ s.healthConfig.readmit ∧ s.healthConfig.readmit ≤ 255
  threshold : 1 ≤ s.queue.threshold ∧ s.queue.threshold ≤ 32

/-- The event queue (R98, R99, R104, R105): at most 32 records, a full queue has an OVERRUN tail, no two OVERRUN records stand
next to each other, the numbers run on to the next one to be given, and every dropped count is at least 1. -/
structure QueueInv (q : EventQueue) : Prop where
  atMost : q.records.length ≤ 32
  fullTail : q.records.length = 32 → q.overrunTail = true
  apart : ∀ i r r', q.records[i]? = some r → q.records[i + 1]? = some r' → ¬(r.isOverrun = true ∧ r'.isOverrun = true)
  numbers : ∀ i r, q.records[i]? = some r → r.seq + BitVec.ofNat 16 (q.records.length - i) = q.seq
  counts : ∀ r ∈ q.records, ∀ n, r.body = .overrun n → n ≠ 0

/-- One health record (R59, R68, R69, R70, R72). -/
structure HealthRecordInv (c : HealthConfig) (h : HealthRecord) : Prop where
  score : h.score ≤ 63
  goodRun : h.goodRun ≤ 255
  atRest : h.state = .idle ∨ h.state = .off → h.score = 0 ∧ h.goodRun = 0 ∧ h.mark = false
  voting : h.state.votes = true → h.goodRun = 0
  active : h.state = .active → h.score < c.suspect
  suspect : h.state = .suspect → 1 ≤ h.score
  probation : h.state = .probation → h.score = 0 ∧ h.goodRun < c.probation
  excluded : h.state = .excluded → c.autoReadmit = true → h.goodRun < c.readmit
  mark : h.mark = true → h.overLimit c.exclude = true

/-- The health monitor (R59, R60, R72): in CONFIG every lane is IDLE, in RUN none is and at least one votes, and a voting lane at
or above Te is the only voting lane and carries the mark. -/
structure HealthInv (s : State) : Prop where
  lanes : ∀ l, HealthRecordInv s.healthConfig (s.health.get l)
  config : s.inRun = false → ∀ l, (s.health.get l).state = .idle
  run : s.inRun = true → (∀ l, (s.health.get l).state ≠ .idle) ∧ ∃ l, (s.health.get l).state.votes = true
  lastVoter : ∀ l, (s.health.get l).overLimit s.healthConfig.exclude = true →
    (s.health.get l).mark = true ∧ ∀ l', l' ≠ l → (s.health.get l').state.votes = false

/-- One open group (R17, R18, R20). -/
structure OpenGroupInv (table : GroupTable) (g : OpenGroup) : Prop where
  deadline : g.deadline = g.reference + BitVec.ofNat 32 (table.window + table.settle)
  members : ∀ l t, g.members.get l = some t → withinWindow table.window t g.reference = true
  opener : ∃ l, g.members.get l = some g.reference

/-- The group table (R17, R18, R20, R25, R30, R36): empty in CONFIG, at most four open groups, and none of them complete. -/
structure GroupInv (s : State) : Prop where
  config : s.inRun = false → s.table.groups = []
  atMost : s.table.groups.length ≤ 4
  groups : ∀ g ∈ s.table.groups, OpenGroupInv s.table g
  incomplete : ∀ g ∈ s.table.groups, g.complete s.laneStates = false

/-- A lane front end (R5, R7, section 1.2): a candidate run has a length of 1..F - 1, and a lane that is not sampled has its front
end stopped. -/
structure FrontEndInv (s : State) : Prop where
  run : ∀ l r, (s.frontEnds.get l).run = some r → 1 ≤ r.length ∧ r.length < (s.laneConfig.get l).filter
  stopped : ∀ l, s.samples l = false → s.frontEnds.get l = .stopped

/-- The period tracker (R82, R86, R90, R94, R158): nothing held in CONFIG or when stalled, a reference period only with a last
anchor time and between the limits, and the limits in range in RUN. -/
structure TrackerInv (s : State) : Prop where
  config : s.inRun = false → s.tracker.lastAnchor = none ∧ s.tracker.stall = .watching
  stalled : s.tracker.stall = .stalled → s.tracker.lastAnchor = none
  held : s.tracker.lastAnchor = none → s.tracker.refPeriod = none
  period : ∀ p, s.tracker.refPeriod = some p → s.limits.lower.toNat ≤ p.toNat ∧ p.toNat ≤ s.limits.upper.toNat
  origin : ∀ t, s.tracker.lastAnchor = some t → s.tracker.origin = t
  limits : s.inRun = true → s.limits.inRange = true

/-- The schedule banks (R116, R117, R123): twelve entries each, every entry in range, and PENDING only in RUN. -/
structure ScheduleInv (s : State) : Prop where
  size : ∀ bank, (s.schedule.entries bank).length = 12
  entries : ∀ bank, ∀ e ∈ s.schedule.entries bank, e.inRange = true
  pending : s.schedule.commit = .pending → s.inRun = true

/-- One armed action (R134). -/
structure ArmedActionInv (x : ArmedAction) : Prop where
  entry : x.entry < 12
  width : 1 ≤ x.width ∧ x.width ≤ 65535
  trailing : x.phase = .trailing → x.action.isPulse = true

/-- The armed list (R134, R135, R149): at most 16 actions, none in CONFIG. -/
structure ArmedInv (s : State) : Prop where
  config : s.inRun = false → s.armed = []
  atMost : s.armed.length ≤ 16
  actions : ∀ x ∈ s.armed, ArmedActionInv x

/-- What START checked still holds in RUN, checks 1 to 6 in their order, with the D it stored (R19, R158); and a lane is enabled in
RUN exactly when it is not OFF (R61, R77, R78). -/
structure RunInv (s : State) : Prop where
  someLane : s.inRun = true → s.someLaneEnabled = true
  window : s.inRun = true → 1 ≤ s.table.window
  limits : s.inRun = true → s.limits.inRange = true
  timeout : s.inRun = true → timeoutInRange s.limits.timeout s.table.window s.table.settle = true
  levels : s.inRun = true → s.healthConfig.suspect ≤ s.healthConfig.exclude
  tolerance : s.inRun = true → s.vote.tolerance ≤ s.table.window
  settle : s.inRun = true → s.table.settle = settleAllowance s.laneConfig
  enables : s.inRun = true → ∀ l, (s.laneConfig.get l).enable = true ↔ (s.health.get l).state ≠ .off

/-- An arrival from a lane leads from one state to another: within the sample that delivers it (R13), and as ARRIVAL on its own
from a sampled lane (R5) that does not hold it as delivered already (log entry 2), with RESET released (R168). -/
def ArrivalGives (lane : Lane) (stamp : Time) (s t : State) : Prop :=
  s.takeArrival lane stamp = t ∧
  (s.resetAsserted = false → s.samples lane = true → (s.frontEnds.get lane).lastAccepted ≠ some stamp →
    exec (.arrival lane stamp) s = .next t)

/-- R168: while RESET is asserted every block holds its hard-reset values. -/
def HeldInv (s : State) : Prop :=
  s.resetAsserted = true → s = { State.reset with resetAsserted := true, lanePins := s.lanePins, pending := s.pending }

/-- Every invariant together. No ACK EVENT is awaited between commands (R109). -/
structure Inv (s : State) : Prop where
  held : HeldInv s
  acks : s.queue.acks = []
  settings : SettingsInv s
  queue : QueueInv s.queue
  health : HealthInv s
  groups : GroupInv s
  frontEnds : FrontEndInv s
  tracker : TrackerInv s
  schedule : ScheduleInv s
  armed : ArmedInv s
  run : RunInv s

end Sys2Proof.Machine
end

