-- ==== Sys2Proof/Certificates/Slice0/Obligations.lean ====
section
/-! DEFINITION. The statements for the provers. Each says in its docstring which rules of spec/ it rests on. -/

open Sys2Proof Sys2Proof.Machine

/-! ## One step -/

/-- Whatever command stands at the front of the queue, a step is that command carried out with the queue's rest; on an empty queue
the block idles (log entry 7: the model's choice). -/
def Obligations.StepTakesTheFrontCommand : Prop :=
  (∀ (c : Instr) (rest : List Instr) (s : State), s.pending = c :: rest → step s = exec c { s with pending := rest }) ∧
  (∀ s : State, s.pending = [] → step s = .next s)

/-- Every command answers a next state from every state, and leaves the commands that wait as they are: nothing stops the part
(R155, R169, R184, R190: every refusal shows in a register). That HARD_RESET leaves the waiting commands (log entry 10), and that
a term whose operands lie outside its row is answered too (log entry 11), are the model's choices. -/
def Obligations.EveryCommandAnswersANextState : Prop :=
  ∀ (c : Instr) (s : State), ∃ t, exec c s = .next t ∧ t.pending = s.pending

/-! ## Reset -/

/-- Section 11.5: the word each location reads after hard reset. -/
def Obligations.HardResetReadsTheMapValues : Prop :=
  ∀ address : Address, State.reset.readAddress address =
    if address = 0x0A ∨ address = 0x0B ∨ address = 0x0C then 0x0010
    else if address = 0x15 then 0x0032
    else if address = 0x16 then 0x1008
    else if address = 0x17 then 0x2010
    else if address = 0x2E ∨ address = 0x43 then 0x0001
    else 0

/-- R168: a hard reset takes every block to its reset value, from any state, whether RESET is then held or released; while it is
asserted no access and no event is taken, and every output pin shows 0 (R147). That the pins' levels and the waiting commands
stay, and that the level a lane pin shows is recorded even then, is the model's choice (log entries 1 and 10). R2, R17, R62, R82,
R115, R116, R123, R147, R148, R149, R168, R176, R177, R180, R186, R188: what no location shows, or shows only in part, after hard
reset; of R62, that hard reset changes the enables is the model's choice (log entry 18). -/
def Obligations.HardResetReturnsEveryBlockToReset : Prop :=
  (∀ (held : Bool) (s : State), exec (.hardReset held) s = .next
     { State.reset with resetAsserted := held, lanePins := s.lanePins, pending := s.pending }) ∧
  (∀ (c : Instr) (s : State), s.resetAsserted = true → (∀ held, c ≠ .hardReset held) →
     ∃ pins, exec c s = .next { s with lanePins := pins } ∧
       ((∀ lane level, c ≠ .laneSample lane level) → (∀ arg place, c ≠ .ackEvent arg (some place)) → pins = s.lanePins)) ∧
  (∀ (line : Line) (s : State), s.resetAsserted = true → s.linePin line = false) ∧
  (State.reset.timebase.now = 0 ∧ State.reset.timebase.prescale = 0 ∧ State.reset.table.groups = [] ∧
   (∀ l, State.reset.health.get l = { state := .idle, score := 0, goodRun := 0, mark := false }) ∧
   State.reset.tracker = { lastAnchor := none, refPeriod := none, anchorCount := 0, stall := .watching, origin := 0 } ∧
   State.reset.queue.records = [] ∧ State.reset.queue.seq = 0 ∧
   (∀ bank, State.reset.schedule.entries bank = List.replicate 12
     { enabled := false, line := .out0, action := .set, exponent := 0, phase := 0, mode := .ticks, delay := 0, width := 1 }) ∧
   State.reset.schedule.active = .a ∧ State.reset.schedule.commit = .none ∧ State.reset.schedule.entryResult = .none ∧
   State.reset.armed = [] ∧ (∀ line, State.reset.output.latch.get line = false) ∧
   (∀ line, State.reset.output.pin line = false) ∧
   State.reset.command.partState = .config ∧ State.reset.command.entryCause = .hard ∧ State.reset.command.result = .none ∧
   State.reset.intflag = 0 ∧ State.reset.irqAsserted = false ∧
   State.reset.stats.live = Counters.zero ∧ State.reset.stats.bank = Counters.zero ∧ State.reset.stats.taken = false ∧
   State.reset.window.readTag = none ∧ State.reset.window.writeTag = none)

/-! ## Invariants -/

/-- The state after hard reset satisfies every invariant of Safety.lean. -/
def Obligations.ResetMeetsEveryInvariant : Prop := Inv State.reset

/-- R98, R99, R104, R105: every step keeps the event queue's invariant, and no ACK EVENT is awaited between commands (R109). -/
def Obligations.StepKeepsTheEventQueue : Prop :=
  (∀ s t : State, QueueInv s.queue → step s = .next t → QueueInv t.queue) ∧
  (∀ s t : State, s.queue.acks = [] → step s = .next t → t.queue.acks = [])

/-- R59, R60, R68, R69, R72: every step keeps the health records' invariant: at least one lane votes in RUN, every lane is IDLE in
CONFIG, and a lane at or above Te votes alone under the mark. -/
def Obligations.StepKeepsAVotingLane : Prop :=
  ∀ s t : State, SettingsInv s → HealthInv s → step s = .next t → HealthInv t

/-- R17, R18, R20, R25, R30, R36: every step keeps the group table's invariant: at most four open groups, none in CONFIG, none
complete, every member within the window. -/
def Obligations.StepKeepsTheGroupTable : Prop :=
  ∀ s t : State, GroupInv s → step s = .next t → GroupInv t

/-- R82, R86, R90, R94: every step keeps the tracker's invariant: a held reference period lies between the limits, with a last
anchor time beside it. -/
def Obligations.StepKeepsTheTracker : Prop :=
  ∀ s t : State, TrackerInv s → step s = .next t → TrackerInv t

/-- R116, R117, R123, R134, R135, R149: every step keeps the banks' and the armed list's invariants. -/
def Obligations.StepKeepsTheScheduleAndTheArmedList : Prop :=
  ∀ s t : State, ScheduleInv s → ArmedInv s → step s = .next t → ScheduleInv t ∧ ArmedInv t

/-- R5, R7, section 1.2: every step keeps the front ends' invariant: a candidate run is shorter than F, and a lane that is not
sampled has a stopped front end. -/
def Obligations.StepKeepsTheFrontEnds : Prop :=
  ∀ s t : State, SettingsInv s → FrontEndInv s → step s = .next t → FrontEndInv t

/-- R14, R21, R49, R63, R64, R65, R114, R158, R169: every step keeps the settings in their ranges, and all six checks of START keep
holding in RUN, with the D it stored, where a lane is enabled exactly when it is not OFF (R61, R77, R78); the health records'
invariant, kept by StepKeepsAVotingLane, is a premise. R168: every step keeps the blocks at their hard-reset values while RESET is
asserted; that the lane pins and the waiting commands stay is the model's own (log entry 10). -/
def Obligations.StepKeepsTheSettings : Prop :=
  (∀ s t : State, SettingsInv s → HealthInv s → RunInv s → step s = .next t → SettingsInv t ∧ RunInv t) ∧
  (∀ s t : State, HeldInv s → step s = .next t → HeldInv t)

/-! ## Timebase and lane inputs -/

/-- R2, R5: a tick advances the counter by one, modulo 2^32, in either part state, and makes the sample of the new tick due on
each lane that is sampled. That a sample is due is the model's own mark (log entry 3), and so is the division's start (log entry
6). -/
def Obligations.TimebaseAdvanceCountsOneTick : Prop :=
  ∀ s : State, s.resetAsserted = false → exec .timebaseAdvance s = .next
    { s with
      timebase := { s.timebase with now := s.timebase.now + 1, divisionFrom := .advance }
      frontEnds := Lanes.build fun l => { s.frontEnds.get l with sampleDue := s.samples l } }

/-- R5, R168: a lane that is not sampled, or has taken this tick's sample, ignores its pin, and so does every lane while RESET is
asserted. That the pin's level is recorded is the model's own (log entries 1 and 3). R8, R9: a sample that confirms nothing. Equal
to the filtered level it changes nothing or breaks the run, which is counted as a glitch; differing from it, short of F, it begins
or lengthens the run. -/
def Obligations.SampleShortOfAConfirmation : Prop :=
  (∀ (lane : Lane) (level : Bool) (s : State),
     s.resetAsserted = true ∨ s.samples lane = false ∨ (s.frontEnds.get lane).sampleDue = false →
     exec (.laneSample lane level) s = .next { s with lanePins := s.lanePins.set lane level }) ∧
  (∀ (lane : Lane) (level : Bool) (s : State) (fe : FrontEnd), s.resetAsserted = false → s.samples lane = true →
     s.frontEnds.get lane = fe → fe.sampleDue = true →
     (level = fe.level → fe.run = none → exec (.laneSample lane level) s = .next
       { s with
         lanePins := s.lanePins.set lane level
         frontEnds := s.frontEnds.set lane { fe with sampleDue := false } }) ∧
     (∀ r, level = fe.level → fe.run = some r → exec (.laneSample lane level) s = .next
       { s with
         lanePins := s.lanePins.set lane level
         frontEnds := s.frontEnds.set lane { fe with run := none, sampleDue := false }
         stats := { s.stats with live := { s.stats.live with lanes := (s.stats.live.lanes.set lane
           { s.stats.live.lanes.get lane with glitches := saturatingNext (s.stats.live.lanes.get lane).glitches }) } } }) ∧
     (level ≠ fe.level → fe.run = none → (s.laneConfig.get lane).filter ≠ 1 → exec (.laneSample lane level) s = .next
       { s with
         lanePins := s.lanePins.set lane level
         frontEnds := s.frontEnds.set lane { fe with run := some { length := 1, start := s.timebase.now }, sampleDue := false } }) ∧
     (∀ r, level ≠ fe.level → fe.run = some r → r.length + 1 ≠ (s.laneConfig.get lane).filter →
       exec (.laneSample lane level) s = .next
       { s with
         lanePins := s.lanePins.set lane level
         frontEnds := s.frontEnds.set lane
           { fe with run := some { length := r.length + 1, start := r.start }, sampleDue := false } }))

/-- R8, R10, R11, R13: the sample that brings the run to F confirms the transition with the run's start tick as its timestamp. A
transition of the other direction goes no further; a blanked one is counted; any other is counted, kept as the last accepted edge
and delivered to the group table within the sample. That the pin's level is recorded (log entry 1) and the mark of the sample due
is taken and cleared (log entry 3) is the model's own. -/
def Obligations.SampleConfirmsATransition : Prop :=
  ∀ (lane : Lane) (level : Bool) (stamp : Time) (s : State) (fe : FrontEnd) (p : Polarity) (selected : Prop),
    s.resetAsserted = false → s.samples lane = true →
    s.frontEnds.get lane = fe → fe.sampleDue = true → level ≠ fe.level →
    (fe.run = none ∧ (s.laneConfig.get lane).filter = 1 ∧ stamp = s.timebase.now) ∨
      (∃ r, fe.run = some r ∧ r.length + 1 = (s.laneConfig.get lane).filter ∧ stamp = r.start) →
    p = (s.laneConfig.get lane).polarity →
    selected = (p = .both ∨ p = .rising ∧ level = true ∨ p = .falling ∧ level = false) →
    (¬selected → exec (.laneSample lane level) s = .next
      { s with
        lanePins := s.lanePins.set lane level
        frontEnds := s.frontEnds.set lane { fe with level := level, run := none, sampleDue := false } }) ∧
    (selected →
      (∃ last, fe.lastAccepted = some last ∧ (stamp - last).toNat < (s.laneConfig.get lane).blanking.toNat) →
      exec (.laneSample lane level) s = .next
      { s with
        lanePins := s.lanePins.set lane level
        frontEnds := s.frontEnds.set lane { fe with level := level, run := none, sampleDue := false }
        stats := { s.stats with live := { s.stats.live with lanes := (s.stats.live.lanes.set lane
          { s.stats.live.lanes.get lane with blanked := saturatingNext (s.stats.live.lanes.get lane).blanked }) } } }) ∧
    (selected →
      (∀ last, fe.lastAccepted = some last → (s.laneConfig.get lane).blanking.toNat ≤ (stamp - last).toNat) →
      exec (.laneSample lane level) s = .next
      (State.takeArrival
        { s with
          lanePins := s.lanePins.set lane level
          frontEnds := s.frontEnds.set lane
            { level := level, run := none, lastAccepted := some stamp, sampleDue := false }
          stats := { s.stats with live := { s.stats.live with lanes := (s.stats.live.lanes.set lane
            { s.stats.live.lanes.get lane with accepted := saturatingNext (s.stats.live.lanes.get lane).accepted }) } } }
        lane stamp))

/-- R12: the last accepted edge time is discarded 65,552 ticks after it, with no other effect. That the command does nothing at
any other tick is the model's choice (log entry 4). -/
def Obligations.LastAcceptedEdgeIsDiscarded : Prop :=
  ∀ (lane : Lane) (s : State), s.resetAsserted = false →
    (∀ p, (s.frontEnds.get lane).lastAccepted = some p → s.timebase.now = p + 65552 →
      exec (.lastAcceptedDiscard lane) s = .next
        { s with frontEnds := s.frontEnds.set lane { s.frontEnds.get lane with lastAccepted := none } }) ∧
    (∀ p, (s.frontEnds.get lane).lastAccepted = some p → s.timebase.now ≠ p + 65552 →
      exec (.lastAcceptedDiscard lane) s = .next s) ∧
    ((s.frontEnds.get lane).lastAccepted = none → exec (.lastAcceptedDiscard lane) s = .next s)

/-! ## Edge groups -/

/-- R22, R25: an arrival joins the oldest group that lacks its lane and has it within the window; a group that the join does not
complete stays in its place, and a complete one leaves the table and closes COMPLETE. -/
def Obligations.ArrivalJoinsTheOldestCandidate : Prop :=
  ∀ (lane : Lane) (stamp : Time) (s : State) (before after : List OpenGroup) (g : OpenGroup),
    s.table.groups = before ++ g :: after →
    (∀ x ∈ before, ¬((x.members.get lane).isNone = true ∧
      ((stamp - x.reference).toNat ≤ s.table.window ∨ (x.reference - stamp).toNat ≤ s.table.window))) →
    g.members.get lane = none →
    ((stamp - g.reference).toNat ≤ s.table.window ∨ (g.reference - stamp).toNat ≤ s.table.window) →
    ((∃ l, (s.health.get l).state.waits = true ∧ l ≠ lane ∧ g.members.get l = none) → ArrivalGives lane stamp s
      { s with table := { s.table with
          groups := before ++ { g with members := g.members.set lane (some stamp) } :: after } }) ∧
    ((∀ l, (s.health.get l).state.waits = true → l ≠ lane → g.members.get l ≠ none) → ArrivalGives lane stamp s
      (State.closeGroup { s with table := { s.table with groups := before ++ after } } .complete
        { g with members := g.members.set lane (some stamp) }))

/-- R20, R23, R25: an arrival with no candidate, with fewer than four groups open, opens a group at the last rank with itself as
the reference time; it closes at once where no other lane is waited for. R24: with four groups open, the oldest first closes
EVICTED, and the arrival then opens its group in the same way, at rank 4. -/
def Obligations.ArrivalWithNoCandidateOpensAGroup : Prop :=
  ∀ (lane : Lane) (stamp : Time) (s : State) (g : OpenGroup),
    (∀ x ∈ s.table.groups, ¬((x.members.get lane).isNone = true ∧
      ((stamp - x.reference).toNat ≤ s.table.window ∨ (x.reference - stamp).toNat ≤ s.table.window))) →
    g = { reference := stamp, members := Lanes.set { a := none, b := none, c := none } lane (some stamp),
          deadline := stamp + BitVec.ofNat 32 (s.table.window + s.table.settle) } →
    (s.table.groups.length < 4 →
      ((∃ l, l ≠ lane ∧ (s.health.get l).state.waits = true) → ArrivalGives lane stamp s
        { s with table := { s.table with groups := s.table.groups ++ [g] } }) ∧
      ((∀ l, l ≠ lane → (s.health.get l).state.waits = false) → ArrivalGives lane stamp s (s.closeGroup .complete g))) ∧
    (∀ (oldest : OpenGroup) (rest : List OpenGroup) (u : State), s.table.groups = oldest :: rest → rest.length = 3 →
      u = State.closeGroup { s with table := { s.table with groups := rest } } .evicted oldest →
      u.table.groups = rest ∧
      ((∃ l, l ≠ lane ∧ (s.health.get l).state.waits = true) → ArrivalGives lane stamp s
        { u with table := { u.table with groups := rest ++ [g] } }) ∧
      ((∀ l, l ≠ lane → (s.health.get l).state.waits = false) → ArrivalGives lane stamp s (u.closeGroup .complete g)))

/-- R28: an open group whose deadline has passed leaves the table and closes EXPIRED. That the command does nothing where no group
of that rank is due is the model's choice (log entries 4 and 5). -/
def Obligations.GroupExpiresAfterItsDeadline : Prop :=
  ∀ (rank : Nat) (s : State),
    (∀ g, s.resetAsserted = false → s.command.partState = .run → 1 ≤ rank → s.table.groups[rank - 1]? = some g →
      later s.timebase.now g.deadline = true →
      exec (.groupExpiry rank) s = .next
        (State.closeGroup { s with table := { s.table with groups := s.table.groups.eraseIdx (rank - 1) } } .expired g)) ∧
    (∀ g, 1 ≤ rank → s.table.groups[rank - 1]? = some g → notLater s.timebase.now g.deadline = true →
      exec (.groupExpiry rank) s = .next s) ∧
    (s.command.partState = .config → exec (.groupExpiry rank) s = .next s) ∧
    (rank = 0 ∨ s.table.groups.length < rank → exec (.groupExpiry rank) s = .next s)

/-- R34, R39, R42, R44, R50, R54, R56, R57: a close takes the next group sequence number and votes on the members' offsets from
the reference time, the lane states at the close and VOTECFG; the result carries the offsets, the class and the spread of the
verdict, the voted time at the voted offset from the reference time (modulo 2^32), and each lane's assessment. The close advances
the counter of its reason and the vote's counters, and hands its vote result to the health monitor and then to the period tracker.
-/
def Obligations.CloseNumbersCountsAndHandsOn : Prop :=
  ∀ (reason : CloseReason) (g : OpenGroup) (s u : State) (b : Ballot) (r : VoteResult),
    r = s.voteOn { seq := s.table.seq, reason := reason, reference := g.reference, members := g.members } →
    b = { offsets := Lanes.build fun l => (g.members.get l).map (memberOffset g.reference)
          states := Lanes.build fun l => (s.health.get l).state
          config := s.vote } →
    u = { s with
          table := { s.table with seq := s.table.seq + 1 }
          stats := { s.stats with live := { s.stats.live with
            lanes := Lanes.build fun l =>
              { s.stats.live.lanes.get l with
                deviant := if r.assessments.get l = .deviant then saturatingNext (s.stats.live.lanes.get l).deviant
                  else (s.stats.live.lanes.get l).deviant
                missing := if r.assessments.get l = .missing then saturatingNext (s.stats.live.lanes.get l).missing
                  else (s.stats.live.lanes.get l).missing }
            complete := if reason = .complete then saturatingNext s.stats.live.complete else s.stats.live.complete
            expired := if reason = .expired then saturatingNext s.stats.live.expired else s.stats.live.expired
            evicted := if reason = .evicted then saturatingNext s.stats.live.evicted else s.stats.live.evicted
            unvoted := if reason ≠ .stopped ∧ r.voteClass = .unvoted then saturatingNext s.stats.live.unvoted
              else s.stats.live.unvoted
            split := if reason ≠ .stopped ∧ r.voteClass = .split then saturatingNext s.stats.live.split
              else s.stats.live.split } } } →
    r = { seq := s.table.seq, reason := reason, reference := g.reference, offsets := b.offsets,
          voteClass := b.verdict.voteClass, votedTime := b.verdict.offset.map (fun x => g.reference + BitVec.ofInt 32 x),
          spread := b.verdict.spread, assessments := Lanes.build (b.assess reason) } ∧
    s.closeGroup reason g = (u.assess r).track r

/-- R14, R22 to R28, R41, R163: what ARRIVAL and GROUP_EXPIRY leave unchanged: the clock, the pins, the front ends, every setting,
the snapshot, the enables, the command unit, the register window and the waiting commands. R5: no arrival comes from a lane that
is not sampled, and the one a front end holds as its last accepted edge has come already, within its sample (log entry 2): both
change nothing. -/
def Obligations.ArrivalAndExpiryFrame : Prop :=
  (∀ (c : Instr) (s t : State), (∃ lane stamp, c = .arrival lane stamp) ∨ (∃ rank, c = .groupExpiry rank) → exec c s = .next t →
    t.resetAsserted = s.resetAsserted ∧ t.timebase = s.timebase ∧ t.lanePins = s.lanePins ∧ t.laneConfig = s.laneConfig ∧
    t.frontEnds = s.frontEnds ∧
    t.table.window = s.table.window ∧ t.table.settle = s.table.settle ∧ t.vote = s.vote ∧ t.healthConfig = s.healthConfig ∧
    t.limits = s.limits ∧ t.queue.threshold = s.queue.threshold ∧
    t.schedule.staging = s.schedule.staging ∧ t.schedule.latePolicy = s.schedule.latePolicy ∧
    t.schedule.index = s.schedule.index ∧ t.schedule.operation = s.schedule.operation ∧
    t.schedule.entryResult = s.schedule.entryResult ∧
    (∀ bank, t.schedule.entries bank = s.schedule.entries bank) ∧
    t.output.enable = s.output.enable ∧ t.output.safe = s.output.safe ∧ t.command = s.command ∧
    t.interrupt.enables = s.interrupt.enables ∧ t.stats.bank = s.stats.bank ∧ t.stats.time = s.stats.time ∧
    t.stats.taken = s.stats.taken ∧ t.window = s.window ∧ t.pending = s.pending) ∧
  (∀ (lane : Lane) (stamp : Time) (s : State),
    s.samples lane = false ∨ (s.frontEnds.get lane).lastAccepted = some stamp → exec (.arrival lane stamp) s = .next s)

/-! ## The vote -/

/-- R44: a member within the window has an offset in -W..+W that leads from the reference time to its timestamp. -/
def Obligations.OffsetOfAMemberLiesInTheWindow : Prop :=
  ∀ (w : Nat) (r t : Time), w ≤ 32767 → (t - r).toNat ≤ w ∨ (r - t).toNat ≤ w →
    -(w : Int) ≤ memberOffset r t ∧ memberOffset r t ≤ w ∧ r + BitVec.ofInt 32 (memberOffset r t) = t

/-- R42, R45 to R48: the voters are the members of lanes in ACTIVE or SUSPECT (an observer's lane is in PROBATION or EXCLUDED),
and their number decides the class, the voted offset and the spread. -/
def Obligations.VotersDecideTheClassAndTheVotedOffset : Prop :=
  (∀ x : LaneState, (x.votes = true ↔ x = .active ∨ x = .suspect) ∧ (x.observes = true ↔ x = .probation ∨ x = .excluded)) ∧
  ∀ b : Ballot,
    (∀ l, b.voterOffset l = if (b.states.get l).votes = true then b.offsets.get l else none) ∧
    (∀ l, b.observerOffset l = if (b.states.get l).observes = true then b.offsets.get l else none) ∧
    b.voters = [Lane.a, Lane.b, Lane.c].filterMap b.voterOffset ∧
    (∀ x y z : Int, x ≤ y → y ≤ z → b.voters.Perm [x, y, z] →
      b.verdict = { voteClass := .full, offset := some y, spread := some (z - x).toNat }) ∧
    (∀ x y : Int, x ≤ y → b.voters.Perm [x, y] →
      b.verdict = { voteClass := if (y - x).toNat ≤ b.config.tolerance then .pair else .split,
                    offset := some (x + (y - x) / 2), spread := some (y - x).toNat }) ∧
    (∀ x : Int, b.voters = [x] → b.verdict =
      if b.config.singleLane = true then { voteClass := .degraded, offset := some x, spread := some 0 }
      else { voteClass := .unvoted, offset := none, spread := none }) ∧
    (b.voters = [] → b.verdict = { voteClass := .unvoted, offset := none, spread := none })

/-- R50 to R52, R55: the assessment of a lane that is not a voter of a SPLIT group with an observer, case by case in R50's
order. R53: in a SPLIT group with an observer the voter farther from it is DEVIANT and the nearer one GOOD; at equal
distance both are NEUTRAL. -/
def Obligations.EveryLaneIsAssessed : Prop :=
  (∀ (b : Ballot) (reason : CloseReason) (l : Lane),
     (reason = .stopped → b.assess reason l = .neutral) ∧
     (b.states.get l = .off → b.assess reason l = .neutral) ∧
     (reason ≠ .stopped → (b.states.get l).waits = true → b.offsets.get l = none →
       b.assess reason l = if b.voters = [] then .neutral else .missing) ∧
     (reason ≠ .stopped → b.offsets.get l ≠ none → b.verdict.voteClass = .unvoted → b.assess reason l = .neutral) ∧
     (b.verdict.voteClass = .split → (b.states.get l).votes = true → b.offsets.get l ≠ none → b.observers = [] →
       b.assess reason l = .neutral) ∧
     (∀ m v, reason ≠ .stopped → (b.states.get l).waits = true → b.offsets.get l = some m → b.verdict.offset = some v →
       b.verdict.voteClass ≠ .split ∨ (b.states.get l).votes = false →
       b.assess reason l = if b.config.tolerance < (m - v).natAbs then .deviant else .good)) ∧
  (∀ (b : Ballot) (reason : CloseReason) (l l' m : Lane) (x y o : Int), reason ≠ .stopped → b.verdict.voteClass = .split →
     l ≠ l' → l ≠ m → l' ≠ m → b.voterOffset l = some x → b.voterOffset l' = some y → b.observerOffset m = some o →
     ((y - o).natAbs < (x - o).natAbs → b.assess reason l = .deviant ∧ b.assess reason l' = .good) ∧
     ((x - o).natAbs = (y - o).natAbs → b.assess reason l = .neutral ∧ b.assess reason l' = .neutral))

/-! ## Lane health -/

/-- R67, R68: the score and the state of a lane in ACTIVE or SUSPECT after pass 1, from its assessment; its good-run count
and its mark are not touched. The hypotheses on the thresholds, the old score, the run and the mark are those of HealthInv and
SettingsInv, which every step keeps. R69, R70: pass 1 of a lane in PROBATION or EXCLUDED, and of one that is OFF or IDLE. -/
def Obligations.PassOneActsOnOneLane : Prop :=
  (∀ (c : HealthConfig) (a : Assessment) (h : HealthRecord) (n : Nat), 1 ≤ c.suspect → h.score ≤ 63 →
     h.state = .active ∧ h.score < c.suspect ∨ h.state = .suspect ∧ 1 ≤ h.score →
     n = (match a with
       | .good => h.score - 1
       | .deviant => if 63 < h.score + c.deviantWeight then 63 else h.score + c.deviantWeight
       | .missing => if 63 < h.score + c.missWeight then 63 else h.score + c.missWeight
       | .neutral => h.score) →
     passOne c a h =
       { h with
         score := n
         state := if h.state = .active then (if c.suspect ≤ n then .suspect else .active)
           else (if n = 0 then .active else .suspect) }) ∧
  (∀ (c : HealthConfig) (h : HealthRecord),
     (h.state = .probation → h.goodRun < 255 →
       passOne c .good h = (if h.goodRun + 1 = c.probation
         then { state := .active, score := 0, goodRun := 0, mark := false } else { h with goodRun := h.goodRun + 1 }) ∧
       passOne c .deviant h = { h with state := .excluded, goodRun := 0 } ∧
       passOne c .missing h = { h with state := .excluded, goodRun := 0 } ∧ passOne c .neutral h = h) ∧
     (h.state = .excluded → h.mark = false →
       passOne c .good h = (if c.autoReadmit = true ∧ min 255 (h.goodRun + 1) = c.readmit
         then { h with state := .probation, score := 0, goodRun := 0 } else { h with goodRun := min 255 (h.goodRun + 1) }) ∧
       passOne c .deviant h = { h with goodRun := 0 } ∧
       passOne c .missing h = { h with goodRun := 0 } ∧ passOne c .neutral h = h) ∧
     (h.state = .off ∨ h.state = .idle → ∀ a, passOne c a h = h))

/-- R71, R72: pass 2. Where some voting lane is under Te, every voting lane at or above it is EXCLUDED; where none is, all but the
one with the lowest score (the lowest index among equals) are, and that one is kept with the mark; no other lane changes but to
lose a mark it no longer qualifies for. -/
def Obligations.PassTwoExcludesAllButTheLastVoter : Prop :=
  ∀ (te : Nat) (hs : Lanes HealthRecord),
    (∀ l, ¬((hs.get l).state.votes = true ∧ te ≤ (hs.get l).score) →
      (passTwo te hs).get l = { hs.get l with mark := false }) ∧
    ((∃ l, (hs.get l).state.votes = true ∧ (hs.get l).score < te) →
      ∀ l, (hs.get l).state.votes = true → te ≤ (hs.get l).score →
        (passTwo te hs).get l = { hs.get l with state := .excluded, goodRun := 0, mark := false }) ∧
    (∀ k, (∀ l, (hs.get l).state.votes = true → te ≤ (hs.get l).score) → (hs.get k).state.votes = true →
      (∀ l, (hs.get l).state.votes = true → l ≠ k →
        (hs.get k).score < (hs.get l).score ∨ (hs.get k).score = (hs.get l).score ∧ (laneCode k).toNat < (laneCode l).toNat) →
      (passTwo te hs).get k = { hs.get k with mark := true } ∧
      ∀ l, l ≠ k → (hs.get l).state.votes = true →
        (passTwo te hs).get l = { hs.get l with state := .excluded, goodRun := 0, mark := false })

/-- R66, R73, R74, R75: the health monitor makes both passes and then offers one LANE record, in lane order, for each lane whose
state differs, and sets the LANE flag with each; nothing else of the part changes. Within an act, each offer is followed by the ACK EVENTs
whose place is right behind it: that one may lie between two of these records is the model's choice (log entry 22). -/
def Obligations.AssessedLanesAreReportedInLaneOrder : Prop :=
  ∀ (r : VoteResult) (s : State) (hs : Lanes HealthRecord) (fields : List LaneFields),
    hs = passTwo s.healthConfig.exclude
      (Lanes.build fun l => passOne s.healthConfig (r.assessments.get l) (s.health.get l)) →
    fields = ([Lane.a, Lane.b, Lane.c].filter fun l => (hs.get l).state ≠ (s.health.get l).state).map (fun l =>
      ({ lane := l, old := (s.health.get l).state, new := (hs.get l).state, cause := .assessment,
         score := (hs.get l).score, groupSeq := some r.seq } : LaneFields)) →
    s.assess r = { fields.foldl (fun t f => t.offer (.lane f)) { s with health := hs } with
      interrupt :=
        { enables := s.interrupt.enables
          flags := { (fields.foldl (fun t f => t.offer (.lane f)) s).interrupt.flags with
            lane := s.interrupt.flags.lane || !fields.isEmpty } } }

/-! ## Period, limits and stall -/

/-- R83, R84, R88: a STOPPED or UNVOTED group leaves the tracker untouched and offers its GROUP record; an out-of-order group, a
voted time not later than a held last anchor time, does too, with the flag set, and is counted. -/
def Obligations.GroupThatIsNoAnchorLeavesTheTracker : Prop :=
  ∀ (r : VoteResult) (s : State),
    (r.reason = .stopped ∨ r.votedTime = none → s.track r = s.offer (.group
      { seq := r.seq, reason := r.reason, reference := r.reference, offsets := r.offsets, voteClass := r.voteClass,
        votedTime := r.votedTime, spread := r.spread, assessments := r.assessments, outOfOrder := false, anchorIndex := none,
        rawPeriod := none, limiter := none })) ∧
    (∀ v last, r.reason ≠ .stopped → r.votedTime = some v → s.tracker.lastAnchor = some last → notLater v last = true →
      s.track r = State.offer
        { s with stats := { s.stats with live := { s.stats.live with outOfOrder := saturatingNext s.stats.live.outOfOrder } } }
        (.group
          { seq := r.seq, reason := r.reason, reference := r.reference, offsets := r.offsets, voteClass := r.voteClass,
            votedTime := r.votedTime, spread := r.spread, assessments := r.assessments, outOfOrder := true,
            anchorIndex := none, rawPeriod := none, limiter := none }))

/-- R83, R85 to R88: an anchor. With no last anchor time held it has no raw period and the reference period stays absent; with one
held, the raw period is measured and clamped, and a status off the limits sets the LIMIT flag. The tracker takes the voted time as
last anchor time and stall origin and counts the anchor; the GROUP record is offered, and then the notice is sent. -/
def Obligations.AnchorMeasuresLimitsAndNotifies : Prop :=
  ∀ (r : VoteResult) (v : Time) (s : State) (record : Option Time → Option LimiterStatus → RecordBody),
    r.reason ≠ .stopped → r.votedTime = some v →
    record = (fun raw status => .group
      { seq := r.seq, reason := r.reason, reference := r.reference, offsets := r.offsets, voteClass := r.voteClass,
        votedTime := r.votedTime, spread := r.spread, assessments := r.assessments, outOfOrder := false,
        anchorIndex := some s.tracker.anchorCount, rawPeriod := raw, limiter := status }) →
    (s.tracker.lastAnchor = none → s.tracker.refPeriod = none →
      s.track r = (State.offer
        { s with tracker := { lastAnchor := some v, refPeriod := none, anchorCount := s.tracker.anchorCount + 1,
                              stall := .watching, origin := v } }
        (record none none)).takeNotice { index := s.tracker.anchorCount, voted := v, period := none }) ∧
    (∀ last raw p status, s.tracker.lastAnchor = some last → later v last = true → raw = v - last →
      (raw.toNat < s.limits.lower.toNat ∧ status = .below ∧ p = s.limits.lower) ∨
        (s.limits.lower.toNat ≤ raw.toNat ∧ s.limits.upper.toNat < raw.toNat ∧ status = .above ∧ p = s.limits.upper) ∨
        (s.limits.lower.toNat ≤ raw.toNat ∧ raw.toNat ≤ s.limits.upper.toNat ∧ status = .within ∧ p = raw) →
      s.track r = (State.offer
        { s with
          tracker := { lastAnchor := some v, refPeriod := some p, anchorCount := s.tracker.anchorCount + 1, stall := .watching,
                       origin := v }
          interrupt := { s.interrupt with flags := { s.interrupt.flags with
            limit := s.interrupt.flags.limit || decide (status ≠ .within) } } }
        (record (some raw) (some status))).takeNotice { index := s.tracker.anchorCount, voted := v, period := some p })

/-- R89, R90: the tracker expires in RUN, while WATCHING, once S ticks have passed since the stall origin: a STALL record, the
STALL flag, no last anchor time, no reference period, STALLED; the anchor count and the origin stay. That the command does nothing
otherwise is the model's choice (log entry 4). -/
def Obligations.StallDiscardsThePeriod : Prop :=
  ∀ s : State,
    (s.resetAsserted = false → s.command.partState = .run → s.tracker.stall = .watching →
      s.limits.timeout.toNat ≤ (s.timebase.now - s.tracker.origin).toNat →
      exec .stallExpiry s = .next
        { s with
          queue := s.queue.offer (.stall s.timebase.now s.tracker.lastAnchor)
          interrupt := { s.interrupt with flags := { s.interrupt.flags with
            stall := true, overrun := s.interrupt.flags.overrun || decide (31 ≤ s.queue.records.length) } }
          tracker := { s.tracker with lastAnchor := none, refPeriod := none, stall := .stalled } }) ∧
    (s.command.partState = .config ∨ s.tracker.stall = .stalled ∨
        (s.timebase.now - s.tracker.origin).toNat < s.limits.timeout.toNat →
      exec .stallExpiry s = .next s)

/-- R189, R93, R94: a low word that completes PMIN or PMAX. In CONFIG any value is taken; in RUN only one that keeps Pl at least
1, below Pu and Pu below 2^28, with the reference period re-clamped; otherwise VALUE and ACCESS are set. The write tag is used up.
-/
def Obligations.LimitWriteIsCheckedInRunAndReclamps : Prop :=
  ∀ (pair : WritablePair) (low : Word) (s u : State) (v : Time) (l : Limits), s.resetAsserted = false →
    pair ≠ .stallto → s.window.writeTag = some pair →
    v = s.window.writeValue ++ low → u = { s with window := { s.window with writeTag := none } } →
    l = (if pair = .pmin then { s.limits with lower := v } else { s.limits with upper := v }) →
    (s.command.partState = .config → exec (.pairLowWrite pair low) s = .next { u with limits := l }) ∧
    (s.command.partState = .run →
      (if pair = .pmin then 1 ≤ v.toNat ∧ v.toNat < s.limits.upper.toNat
        else s.limits.lower.toNat < v.toNat ∧ v.toNat < 2 ^ 28) →
      exec (.pairLowWrite pair low) s = .next
        { u with
          limits := l
          tracker := { s.tracker with refPeriod := s.tracker.refPeriod.map fun p =>
            if p.toNat < l.lower.toNat then l.lower else if l.upper.toNat < p.toNat then l.upper else p } }) ∧
    (s.command.partState = .run →
      ¬(if pair = .pmin then 1 ≤ v.toNat ∧ v.toNat < s.limits.upper.toNat
        else s.limits.lower.toNat < v.toNat ∧ v.toNat < 2 ^ 28) →
      exec (.pairLowWrite pair low) s = .next
        { u with
          window := { u.window with busStatus := { s.window.busStatus with value := true } }
          interrupt := { s.interrupt with flags := { s.interrupt.flags with access := true } } })

/-- R189, R93, R95: a low word that completes STALLTO. In CONFIG any value is taken; in RUN one between 2(W + D) and 2^30, and a
timer that it makes due expires within the write; any other sets VALUE and ACCESS. -/
def Obligations.TimeoutWriteMayExpireTheTracker : Prop :=
  ∀ (low : Word) (s u : State) (v : Time), s.resetAsserted = false → s.window.writeTag = some .stallto →
    v = s.window.writeValue ++ low →
    u = { s with window := { s.window with writeTag := none }, limits := { s.limits with timeout := v } } →
    (s.command.partState = .config → exec (.pairLowWrite .stallto low) s = .next u) ∧
    (s.command.partState = .run → 2 * (s.table.window + s.table.settle) < v.toNat → v.toNat < 2 ^ 30 →
      exec (.pairLowWrite .stallto low) s =
        if s.tracker.stall = .watching ∧ v.toNat ≤ (s.timebase.now - s.tracker.origin).toNat then exec .stallExpiry u
        else .next u) ∧
    (s.command.partState = .run → v.toNat ≤ 2 * (s.table.window + s.table.settle) ∨ 2 ^ 30 ≤ v.toNat →
      exec (.pairLowWrite .stallto low) s = .next
        { u with
          limits := s.limits
          window := { u.window with busStatus := { s.window.busStatus with value := true } }
          interrupt := { s.interrupt with flags := { s.interrupt.flags with access := true } } })

/-! ## The event queue -/

/-- R105, R104, R99: the append rule, by the number of records held and the kind of the tail, and the OVERRUN flag of each drop.
No ACK EVENT is awaited between commands, which every step keeps; within an act, R109 and AckEventRemovesTheHead apply. -/
def Obligations.OfferFollowsTheAppendRule : Prop :=
  ∀ (body : RecordBody) (s : State), s.queue.acks = [] →
    (s.queue.records.length < 31 → s.offer body =
      { s with queue := { s.queue with
          records := s.queue.records ++ [{ seq := s.queue.seq, body := body }], seq := s.queue.seq + 1 } }) ∧
    (∀ (front : List Record) (k n : Word), s.queue.records = front ++ [{ seq := k, body := .overrun n }] →
      31 ≤ s.queue.records.length → s.offer body =
      { s with
        queue := { s.queue with records := front ++ [{ seq := k, body := .overrun (if n = 65535 then 65535 else n + 1) }] }
        interrupt := { s.interrupt with flags := { s.interrupt.flags with overrun := true } } }) ∧
    (∀ (front : List Record) (r : Record), s.queue.records = front ++ [r] → (∀ n, r.body ≠ .overrun n) →
      31 ≤ s.queue.records.length → s.offer body =
      { s with
        queue := { s.queue with
          records := s.queue.records ++ [{ seq := s.queue.seq, body := .overrun 1 }], seq := s.queue.seq + 1 }
        interrupt := { s.interrupt with flags := { s.interrupt.flags with overrun := true } } })

/-- R108: ACK EVENT removes the head, whatever its kind, with result DONE; with the queue empty it is refused STATE. The argument
is not examined, the record sequence counter stays, and nothing else changes, in either part state. R109: an ACK EVENT that falls
within the act of an event of its tick is taken at the queue once so many of the act's offers have been answered, or after the
last where the act makes fewer; the act is otherwise the event's own, and CMDRES shows the last ACK EVENT's answer. That the
command carries the event, and which events have an ACK EVENT within their act, is the model's choice (log entry 20), and so is that
an anchor notice's offers count as one (log entry 21: NoticeTakesTheCommitThenArmsInOrder) and that a place may lie between two LANE
records of one group (log entry 22). -/
def Obligations.AckEventRemovesTheHead : Prop :=
  (∀ (arg : BitVec 8) (s : State), s.resetAsserted = false →
    (∀ (head : Record) (rest : List Record), s.queue.records = head :: rest → exec (.ackEvent arg none) s = .next
      { s with
        queue := { s.queue with records := rest }
        command := { s.command with code := 0x0B, result := .done, startError := 0 } }) ∧
    (s.queue.records = [] → exec (.ackEvent arg none) s = .next
      { s with command := { s.command with code := 0x0B, result := .state, startError := 0 } }) ∧
    (∀ (place : AckPlace) (c : Instr),
      (∃ lane level, place.event = .sample lane level ∧ c = .laneSample lane level) ∨
        (∃ lane stamp, place.event = .arrival lane stamp ∧ c = .arrival lane stamp) ∨
        (∃ rank, place.event = .groupExpiry rank ∧ c = .groupExpiry rank) →
      ∃ t, exec c { s with queue := s.queue.await (place.after :: place.further) } = .next t ∧
        exec (.ackEvent arg (some place)) s = .next
          { t with
            queue := { t.queue.endAct with ackAnswer := .none }
            command := { t.command with code := 0x0B, result := t.queue.endAct.ackAnswer, startError := 0 } })) ∧
  (∀ (q : EventQueue) (n : Nat) (rest : List Nat),
    (q.records = [] → q.acknowledge = { q with ackAnswer := .state }) ∧
    (∀ head others, q.records = head :: others → q.acknowledge = { q with records := others, ackAnswer := .done }) ∧
    q.await [] = { q with acks := [] } ∧ q.await (0 :: rest) = q.acknowledge.await rest ∧
    q.await ((n + 1) :: rest) = { q with acks := (n + 1) :: rest } ∧
    (q.acks = (n + 1) :: rest → ∀ body, q.offer body = (EventQueue.offer { q with acks := [] } body).await (n :: rest)) ∧
    (q.acks = [] → q.endAct = q) ∧
    (q.acks = n :: rest → q.endAct = (EventQueue.acknowledge { q with acks := rest }).endAct))

/-! ## Schedule banks -/

/-- R124, R125: COMMIT exchanges the banks at once in CONFIG, waits as PENDING in RUN, and is refused BUSY while one waits; CANCEL
COMMIT withdraws a waiting commit and is refused STATE otherwise. Neither looks at its argument. -/
def Obligations.CommitAndCancelCommit : Prop :=
  ∀ (arg : BitVec 8) (s : State), s.resetAsserted = false →
    (s.command.partState = .config → exec (.commit arg) s = .next
      { s with
        schedule := { s.schedule with active := s.schedule.active.other, commit := .done }
        command := { s.command with code := 0x04, result := .done, startError := 0 } }) ∧
    (s.command.partState = .run → s.schedule.commit ≠ .pending → exec (.commit arg) s = .next
      { s with
        schedule := { s.schedule with commit := .pending }
        command := { s.command with code := 0x04, result := .pending, startError := 0 } }) ∧
    (s.command.partState = .run → s.schedule.commit = .pending → exec (.commit arg) s = .next
      { s with command := { s.command with code := 0x04, result := .busy, startError := 0 } }) ∧
    (s.schedule.commit = .pending → exec (.cancelCommit arg) s = .next
      { s with
        schedule := { s.schedule with commit := .cancelled }
        command := { s.command with code := 0x05, result := .done, startError := 0 } }) ∧
    (s.schedule.commit ≠ .pending → exec (.cancelCommit arg) s = .next
      { s with command := { s.command with code := 0x05, result := .state, startError := 0 } })

/-- R126: an anchor notice first takes a pending commit, with its record and the COMMIT flag, and then takes the entries of the
bank that is then active, one after the other in index order. No command is taken between the two steps or between two entries: an
ACK EVENT awaited within the act falls before the notice's work or right behind it, where the whole work passes as one offer. That
R126 goes before R109 there is the model's choice (log entry 21). -/
def Obligations.NoticeTakesTheCommitThenArmsInOrder : Prop :=
  ∀ (n : Notice) (s held u : State),
    held = { s with queue := { s.queue with acks := [] } } →
    (s.schedule.commit ≠ .pending → u = held) →
    (s.schedule.commit = .pending → u =
      { held with
        schedule := { s.schedule with active := s.schedule.active.other, commit := .done }
        queue := held.queue.offer (.commit s.schedule.active.other n.index)
        interrupt := { s.interrupt with flags := { s.interrupt.flags with
          commit := true, overrun := s.interrupt.flags.overrun || decide (31 ≤ s.queue.records.length) } } }) →
    let t := ((u.schedule.entries u.schedule.active).zipIdx).foldl (fun t e => t.armEntry n e.2 e.1) u
    t.queue.acks = [] ∧
    (s.queue.acks = [] → s.takeNotice n = t) ∧
    (∀ k rest, s.queue.acks = k :: rest → s.takeNotice n = { t with queue := t.queue.await ((k - 1) :: rest) })

/-- R128, R129, R131, R132: an entry that is not selected does nothing; one due later than now is inserted with phase LEADING, or
is MISSED FULL when the list holds 16; a FRACTION entry with no reference period is MISSED NO-PERIOD. -/
def Obligations.SelectedEntryIsArmedOrMissed : Prop :=
  ∀ (n : Notice) (i : Nat) (e : Entry) (s : State),
    (∀ reason, s.miss i n.index reason =
      { s with
        queue := s.queue.offer (.missed i s.schedule.active n.index reason)
        interrupt := { s.interrupt with flags := { s.interrupt.flags with
          missed := true, overrun := s.interrupt.flags.overrun || decide (31 ≤ s.queue.records.length) } }
        stats := { s.stats with live := { s.stats.live with missed := saturatingNext s.stats.live.missed } } }) ∧
    (e.enabled = false ∨ n.index.toNat % 2 ^ e.exponent ≠ e.phase → s.armEntry n i e = s) ∧
    (e.enabled = true → n.index.toNat % 2 ^ e.exponent = e.phase → e.mode = .fraction → n.period = none →
      s.armEntry n i e = s.miss i n.index .noPeriod) ∧
    (∀ (delay : Nat) (due : Time), e.enabled = true → n.index.toNat % 2 ^ e.exponent = e.phase →
      (e.mode = .ticks ∧ delay = e.delay) ∨ (∃ p, e.mode = .fraction ∧ n.period = some p ∧ delay = e.delay * p.toNat / 1024) →
      due = n.voted + BitVec.ofNat 32 delay → later due s.timebase.now = true →
      s.armEntry n i e = if s.armed.length < 16 then
          { s with armed := (insertArmed s.tracker.anchorCount
              { entry := i, line := e.line, action := e.action, width := e.width, due := due, phase := .leading,
                anchor := n.index } s.armed) }
        else s.miss i n.index .full)

/-- R130, R132: a late entry. Under SKIP it is MISSED LATE. Under EXECUTE a SET, CLEAR or TOGGLE is executed at once and counted;
a pulse is executed whole when its end is late too, else begun with its TRAILING phase inserted, or MISSED FULL with no effect on
the latch when the list holds 16. -/
def Obligations.LateEntryFollowsTheLatePolicy : Prop :=
  ∀ (n : Notice) (i : Nat) (e : Entry) (s late : State) (delay : Nat) (due : Time), e.enabled = true →
    n.index.toNat % 2 ^ e.exponent = e.phase →
    (e.mode = .ticks ∧ delay = e.delay) ∨ (∃ p, e.mode = .fraction ∧ n.period = some p ∧ delay = e.delay * p.toNat / 1024) →
    due = n.voted + BitVec.ofNat 32 delay → notLater due s.timebase.now = true →
    late = { s with stats := { s.stats with live := { s.stats.live with
      lateExecutes := saturatingNext s.stats.live.lateExecutes } } } →
    (s.schedule.latePolicy = .skip → s.armEntry n i e = s.miss i n.index .late) ∧
    (s.schedule.latePolicy = .execute → e.action.isPulse = false → s.armEntry n i e =
      { late with output := { s.output with
          latch := s.output.latch.set e.line (latchAfter e.action .leading (s.output.latch.get e.line)) } }) ∧
    (s.schedule.latePolicy = .execute → e.action.isPulse = true →
      notLater (due + BitVec.ofNat 32 e.width) s.timebase.now = true → s.armEntry n i e =
      { late with output := { s.output with latch := s.output.latch.set e.line (latchAfter e.action .trailing false) } }) ∧
    (s.schedule.latePolicy = .execute → e.action.isPulse = true →
      later (due + BitVec.ofNat 32 e.width) s.timebase.now = true → s.armed.length < 16 → s.armEntry n i e =
      { late with
        output := { s.output with latch := s.output.latch.set e.line (latchAfter e.action .leading false) }
        armed := insertArmed s.tracker.anchorCount
          { entry := i, line := e.line, action := e.action, width := e.width, due := due + BitVec.ofNat 32 e.width,
            phase := .trailing, anchor := n.index } s.armed }) ∧
    (s.schedule.latePolicy = .execute → e.action.isPulse = true →
      later (due + BitVec.ofNat 32 e.width) s.timebase.now = true → 16 ≤ s.armed.length →
      s.armEntry n i e = s.miss i n.index .full)

/-- R118, R119, R121: a staging word write takes that word's fields by the layout of section 11.7, with no check, and a read of
the word returns them; READ SHADOW and READ ACTIVE load the staging with an entry of the bank that holds the role, or are refused
ARG for an index of 12..15. R117, R119: loading an entry that is in range into the staging loses none of its fields. -/
def Obligations.EntryWindowLoadsTheStagingWhole : Prop :=
  (∀ (index : BitVec 4) (s : State), s.resetAsserted = false →
     (∀ (value : Word) (line : Line) (t : State), value.toNat / 2 % 4 = lineIndex line →
       t = { s with schedule := { s.schedule with staging := { s.schedule.staging with
               enabled := value.getLsbD 0, line := line, action := value.extractLsb' 4 3, exponent := value.extractLsb' 8 3,
               mode := if value.getLsbD 11 = true then .fraction else .ticks } } } →
       exec (.stagingWrite .estg0 value) s = .next t ∧ t.readAddress 0x40 = value &&& 0x0F77) ∧
     (∀ (value : Word) (t : State),
       t = { s with schedule := { s.schedule with staging := { s.schedule.staging with
               phase := value.extractLsb' 0 6, delayHigh := value.extractLsb' 8 8 } } } →
       exec (.stagingWrite .estg1 value) s = .next t ∧ t.readAddress 0x41 = value &&& 0xFF3F) ∧
     (∀ (value : Word) (t : State),
       t = { s with schedule := { s.schedule with staging := { s.schedule.staging with delayLow := value } } } →
       exec (.stagingWrite .estg2 value) s = .next t ∧ t.readAddress 0x42 = value) ∧
     (∀ (value : Word) (t : State),
       t = { s with schedule := { s.schedule with staging := { s.schedule.staging with width := value } } } →
       exec (.stagingWrite .estg3 value) s = .next t ∧ t.readAddress 0x43 = value) ∧
     (index.toNat < 12 → exec (.readShadow index) s = .next
       { s with schedule := { s.schedule with
           staging := Staging.ofEntry ((s.schedule.entries s.schedule.active.other).getD index.toNat Entry.cleared)
           index := index, operation := 0, entryResult := .done } }) ∧
     (index.toNat < 12 → exec (.readActive index) s = .next
       { s with schedule := { s.schedule with
           staging := Staging.ofEntry ((s.schedule.entries s.schedule.active).getD index.toNat Entry.cleared)
           index := index, operation := 1, entryResult := .done } }) ∧
     (12 ≤ index.toNat → exec (.readShadow index) s = .next
       { s with schedule := { s.schedule with index := index, operation := 0, entryResult := .arg } }) ∧
     (12 ≤ index.toNat → exec (.readActive index) s = .next
       { s with schedule := { s.schedule with index := index, operation := 1, entryResult := .arg } })) ∧
  (∀ e : Entry, e.inRange = true → (Staging.ofEntry e).toEntry = some e)

/-- R120: the checks of an entry WRITE in their order, and the copy of the staging into the shadow entry. -/
def Obligations.EntryWriteChecksInOrder : Prop :=
  ∀ (index : BitVec 4) (s : State) (g : Staging) (bad : Prop), s.resetAsserted = false → g = s.schedule.staging →
    bad = (6 < g.exponent.toNat ∨ 2 ^ g.exponent.toNat ≤ g.phase.toNat ∨ 4 < g.action.toNat ∨ g.width = 0 ∨
      (g.mode = .fraction ∧ 4095 < g.delay)) →
    (12 ≤ index.toNat → exec (.write index) s = .next
      { s with schedule := { s.schedule with index := index, operation := 2, entryResult := .arg } }) ∧
    (index.toNat < 12 → s.schedule.commit = .pending → exec (.write index) s = .next
      { s with schedule := { s.schedule with index := index, operation := 2, entryResult := .busy } }) ∧
    (index.toNat < 12 → s.schedule.commit ≠ .pending → bad → exec (.write index) s = .next
      { s with schedule := { s.schedule with index := index, operation := 2, entryResult := .arg } }) ∧
    (∀ action, index.toNat < 12 → s.schedule.commit ≠ .pending → ¬bad → actionOfCode g.action = some action →
      exec (.write index) s = .next
      { s with schedule := { s.schedule.setEntries s.schedule.active.other
            ((s.schedule.entries s.schedule.active.other).set index.toNat
              { enabled := g.enabled, line := g.line, action := action, exponent := g.exponent.toNat, phase := g.phase.toNat,
                mode := g.mode, delay := g.delay, width := g.width.toNat }) with
          index := index, operation := 2, entryResult := .done } })

/-! ## Armed actions and output lines -/

/-- R135, R136: an action enters the list before the first held action that it stands before, or at the end; every held action
keeps its place. It stands before one with a later due time; at equal due times, before one of a later anchor, then of a higher
entry index. -/
def Obligations.ArmedActionTakesItsPlace : Prop :=
  (∀ (count : Time) (x : ArmedAction) (l : List ArmedAction), ∃ before after, l = before ++ after ∧
    insertArmed count x l = before ++ x :: after ∧ (∀ y ∈ before, standsBefore count x y = false) ∧
    ∀ y rest, after = y :: rest → standsBefore count x y = true) ∧
  (∀ (count : Time) (x y : ArmedAction),
    (x.due ≠ y.due → standsBefore count x y = notLater x.due y.due) ∧
    (x.due = y.due → x.anchor ≠ y.anchor →
      (standsBefore count x y = true ↔ (count - y.anchor).toNat < (count - x.anchor).toNat)) ∧
    (x.due = y.due → x.anchor = y.anchor → (standsBefore count x y = true ↔ x.entry < y.entry)))

/-- R138: the latch after each action and phase. -/
def Obligations.LatchAfterAnAction : Prop :=
  ∀ (phase : Phase) (before : Bool),
    latchAfter .set phase before = true ∧ latchAfter .clear phase before = false ∧
    latchAfter .toggle phase before = !before ∧
    latchAfter .pulseHigh .leading before = true ∧ latchAfter .pulseHigh .trailing before = false ∧
    latchAfter .pulseLow .leading before = false ∧ latchAfter .pulseLow .trailing before = true

/-- R137, R138, R139: in RUN the head expires once its due time is not later than now: it leaves the list and acts on its line's
latch, and the leading phase of a pulse puts its trailing phase into the list, due its width later. That the command does nothing
where no head is due is the model's choice (log entry 4). -/
def Obligations.ArmedHeadExpiresWhenDue : Prop :=
  ∀ (s : State) (o : Output),
    (∀ x rest, s.resetAsserted = false → s.command.partState = .run → s.armed = x :: rest → notLater x.due s.timebase.now = true →
      o = { s.output with latch := s.output.latch.set x.line (latchAfter x.action x.phase (s.output.latch.get x.line)) } →
      (x.action.isPulse = true → x.phase = .leading → exec .armedActionExpiry s = .next
        { s with
          output := o
          armed := insertArmed s.tracker.anchorCount
            { x with phase := .trailing, due := x.due + BitVec.ofNat 32 x.width } rest }) ∧
      (x.action.isPulse = false ∨ x.phase = .trailing → exec .armedActionExpiry s = .next
        { s with output := o, armed := rest })) ∧
    (∀ x rest, s.armed = x :: rest → later x.due s.timebase.now = true → exec .armedActionExpiry s = .next s) ∧
    (s.armed = [] ∨ s.command.partState = .config → exec .armedActionExpiry s = .next s)

/-- R141, R156: FLUSH removes every action of the lines in its mask and no other, with result DONE; a mask of 0 is refused
ARG. The upper four bits of the argument are ignored, and nothing else of the part changes, in either part state. R144,
R156: FORCE with SET, CLEAR or TOGGLE changes the named line's latch at once, with result DONE; any other action code is
refused ARG. Nothing else of the part changes, in either part state. -/
def Obligations.FlushAndForce : Prop :=
  (∀ (arg : BitVec 8) (s : State), s.resetAsserted = false →
     (arg &&& 0x0F = 0 → exec (.flush arg) s = .next
       { s with command := { s.command with code := 0x06, result := .arg, startError := 0 } }) ∧
     (arg &&& 0x0F ≠ 0 → exec (.flush arg) s = .next
       { s with
         armed := s.armed.filter fun x => !arg.getLsbD (lineIndex x.line)
         command := { s.command with code := 0x06, result := .done, startError := 0 } })) ∧
  (∀ (arg : BitVec 8) (line : Line) (code : Nat) (s : State), s.resetAsserted = false →
     arg.toNat % 4 = lineIndex line → arg.toNat / 16 % 8 = code →
     (∀ level, (code = 0 ∧ level = true) ∨ (code = 1 ∧ level = false) ∨ (code = 2 ∧ level = !s.output.latch.get line) →
       exec (.force arg) s = .next
         { s with
           output := { s.output with latch := s.output.latch.set line level }
           command := { s.command with code := 0x07, result := .done, startError := 0 } }) ∧
     (3 ≤ code → exec (.force arg) s = .next
       { s with command := { s.command with code := 0x07, result := .arg, startError := 0 } }))

/-- R146, R147: a write of OUTCFG takes all four enables and safe levels together, in either part state, and changes no latch; a
pin shows its latch while its output is enabled and its safe level while it is not. -/
def Obligations.OutcfgWriteAndThePins : Prop :=
  ∀ (value : Word) (s : State), s.resetAsserted = false → ∃ o : Output,
    exec (.outcfgWrite value) s = .next { s with output := o } ∧ o.latch = s.output.latch ∧
    (∀ line, o.enable.get line = value.getLsbD (lineIndex line)) ∧
    (∀ line, o.safe.get line = value.getLsbD (4 + lineIndex line)) ∧
    (∀ line, o.enable.get line = true → o.pin line = o.latch.get line) ∧
    (∀ line, o.enable.get line = false → o.pin line = o.safe.get line)

/-! ## Run control -/

/-- R156, R158, R159: a START in RUN is refused STATE; in CONFIG the first check that fails gives ARG and its number, and nothing
but CMDRES changes. -/
def Obligations.StartReportsTheFirstFailingCheck : Prop :=
  ∀ (arg : BitVec 8) (s refusedState : State) (refused : Nat → State) (w d : Nat) (c1 c2 c3 c4 c5 c6 : Prop),
    s.resetAsserted = false →
    w = s.table.window → d = max (max s.laneConfig.a.filter s.laneConfig.b.filter) s.laneConfig.c.filter - 1 →
    c1 = (∀ l, (s.laneConfig.get l).enable = false) → c2 = (w = 0) →
    c3 = (s.limits.lower = 0 ∨ s.limits.upper.toNat ≤ s.limits.lower.toNat ∨ 2 ^ 28 ≤ s.limits.upper.toNat) →
    c4 = (s.limits.timeout.toNat ≤ 2 * (w + d) ∨ 2 ^ 30 ≤ s.limits.timeout.toNat) →
    c5 = (s.healthConfig.exclude < s.healthConfig.suspect) → c6 = (w < s.vote.tolerance) →
    refusedState = { s with command := { s.command with code := 0x01, result := .state, startError := 0 } } →
    refused = (fun k => { s with command := { s.command with code := 0x01, result := .arg, startError := k } }) →
    (s.command.partState = .run → exec (.start arg) s = .next refusedState) ∧
    (s.command.partState = .config →
      (c1 → exec (.start arg) s = .next (refused 1)) ∧
      (¬c1 → c2 → exec (.start arg) s = .next (refused 2)) ∧
      (¬c1 → ¬c2 → c3 → exec (.start arg) s = .next (refused 3)) ∧
      (¬c1 → ¬c2 → ¬c3 → c4 → exec (.start arg) s = .next (refused 4)) ∧
      (¬c1 → ¬c2 → ¬c3 → ¬c4 → c5 → exec (.start arg) s = .next (refused 5)) ∧
      (¬c1 → ¬c2 → ¬c3 → ¬c4 → ¬c5 → c6 → exec (.start arg) s = .next (refused 6)))

/-- R158, R160, R6, R19, R61, R82, R101: a START whose six checks pass sets up every block for the run, offers the START record
and enters RUN; everything else stays. -/
def Obligations.StartSetsUpTheRun : Prop :=
  ∀ (arg : BitVec 8) (s : State) (d : Nat), s.resetAsserted = false → s.command.partState = .config →
    d = max (max s.laneConfig.a.filter s.laneConfig.b.filter) s.laneConfig.c.filter - 1 →
    (∃ l, (s.laneConfig.get l).enable = true) → s.table.window ≠ 0 →
    1 ≤ s.limits.lower.toNat → s.limits.lower.toNat < s.limits.upper.toNat → s.limits.upper.toNat < 2 ^ 28 →
    2 * (s.table.window + d) < s.limits.timeout.toNat → s.limits.timeout.toNat < 2 ^ 30 →
    s.healthConfig.suspect ≤ s.healthConfig.exclude → s.vote.tolerance ≤ s.table.window →
    exec (.start arg) s = .next
      { s with
        table := { s.table with groups := [], seq := 0, settle := d }
        health := Lanes.build fun l =>
          { state := if (s.laneConfig.get l).enable then .active else .off, score := 0, goodRun := 0, mark := false }
        frontEnds := Lanes.build fun l => if (s.laneConfig.get l).enable
          then { level := s.lanePins.get l, run := none, lastAccepted := none, sampleDue := false } else FrontEnd.stopped
        tracker := { lastAnchor := none, refPeriod := none, anchorCount := 0, stall := .watching, origin := s.timebase.now }
        armed := []
        queue := s.queue.offer (.start s.timebase.now
          (Lanes.build fun l => if (s.laneConfig.get l).enable then .active else .off))
        interrupt := { s.interrupt with flags := { s.interrupt.flags with
          overrun := s.interrupt.flags.overrun || decide (31 ≤ s.queue.records.length) } }
        command := { s.command with partState := .run, code := 0x01, result := .done, startError := 0 } }

/-- R162, R163, R36, R55, R149: a STOP in CONFIG is refused STATE. In RUN it closes every open group STOPPED, empties the armed
list, takes the latches to the safe levels, withdraws a pending commit, makes the lanes IDLE, clears the tracker but for its
count, offers the STOP record and enters CONFIG; it counts nothing and sets no flag but OVERRUN. -/
def Obligations.StopEndsTheRunInOrder : Prop :=
  ∀ (arg : BitVec 8) (s : State), s.resetAsserted = false →
    (s.command.partState = .config → exec (.stop arg) s = .next
      { s with command := { s.command with code := 0x02, result := .state, startError := 0 } }) ∧
    (∀ u : State, s.command.partState = .run → HealthInv s →
      u = s.table.groups.foldl (fun v g => State.closeGroup v .stopped g) { s with table := { s.table with groups := [] } } →
      exec (.stop arg) s = .next
        { s with
          table := { s.table with groups := [], seq := s.table.seq + BitVec.ofNat 16 s.table.groups.length }
          armed := []
          output := { s.output with latch := s.output.safe }
          schedule := { s.schedule with
            commit := if s.schedule.commit = .pending then .cancelled else s.schedule.commit }
          health := Lanes.build fun _ => { state := .idle, score := 0, goodRun := 0, mark := false }
          frontEnds := Lanes.build fun _ => FrontEnd.stopped
          tracker := { lastAnchor := none, refPeriod := none, anchorCount := s.tracker.anchorCount, stall := .watching,
                       origin := 0 }
          queue := u.queue.offer (.stop s.timebase.now s.table.groups.length s.armed.length)
          interrupt := { s.interrupt with flags := { s.interrupt.flags with
            overrun := u.interrupt.flags.overrun || decide (31 ≤ u.queue.records.length) } }
          command := { s.command with partState := .config, entryCause := .stop, code := 0x02, result := .done,
                                      startError := 0 } })

/-- R165, R166, R38, R62, R82, R115, R148: SOFT RESET takes all dynamic state to its reset value, from either part state, and
keeps everything that configures the part, the active bank as it stands then (log entry 19: the model's choice beside R167). -/
def Obligations.SoftResetKeepsTheConfiguration : Prop :=
  ∀ (arg : BitVec 8) (s : State), s.resetAsserted = false → exec (.softReset arg) s = .next
    { s with
      table := { s.table with groups := [], seq := 0, settle := 0 }
      health := Lanes.build fun _ => { state := .idle, score := 0, goodRun := 0, mark := false }
      frontEnds := Lanes.build fun _ => FrontEnd.stopped
      tracker := { lastAnchor := none, refPeriod := none, anchorCount := 0, stall := .watching, origin := 0 }
      armed := []
      output := { s.output with latch := s.output.safe }
      schedule := { s.schedule with commit := .none, staging := Staging.cleared, index := 0, operation := 0,
                                    entryResult := .none }
      queue := { s.queue with records := [], seq := 0 }
      stats := { live := Counters.zero, bank := Counters.zero, time := 0, taken := false }
      interrupt := { s.interrupt with flags := Flags.clear }
      window := { s.window with readValue := 0, readTag := none, writeValue := 0, writeTag := none, busStatus := BusStatus.clear }
      command := { partState := .config, entryCause := .soft, code := 0, result := .none, startError := 0 } }

/-- R76, R77: LANE ENABLE: ARG for a lane code of 3; in CONFIG the enable alone is set; in RUN an OFF lane enters PROBATION
with its front end initialised, its LANE record and the LANE flag, and any other lane is refused STATE. R76, R79: LANE
READMIT: ARG for a lane code of 3; in RUN an EXCLUDED lane enters PROBATION with its LANE record and the LANE flag, its
enable and front end untouched; anything else is refused STATE. -/
def Obligations.LaneEnableAndReadmitPutALaneOnProbation : Prop :=
  (∀ (arg : BitVec 8) (s : State) (answered : CmdResult → CommandUnit), s.resetAsserted = false →
     answered = (fun r => { s.command with code := 0x08, result := r, startError := 0 }) →
     (arg.toNat % 4 = 3 → exec (.laneEnable arg) s = .next { s with command := answered .arg }) ∧
     (∀ lane, arg.toNat % 4 = (laneCode lane).toNat → s.command.partState = .config → exec (.laneEnable arg) s = .next
       { s with laneConfig := s.laneConfig.set lane { s.laneConfig.get lane with enable := true }, command := answered .done }) ∧
     (∀ lane, arg.toNat % 4 = (laneCode lane).toNat → s.command.partState = .run → (s.health.get lane).state = .off →
       exec (.laneEnable arg) s = .next
       { s with
         laneConfig := s.laneConfig.set lane { s.laneConfig.get lane with enable := true }
         frontEnds := s.frontEnds.set lane { level := s.lanePins.get lane, run := none, lastAccepted := none, sampleDue := false }
         health := s.health.set lane { state := .probation, score := 0, goodRun := 0, mark := false }
         queue := s.queue.offer (.lane { lane := lane, old := .off, new := .probation, cause := .enable, score := 0,
                                         groupSeq := none })
         interrupt := { s.interrupt with flags := { s.interrupt.flags with
           lane := true, overrun := s.interrupt.flags.overrun || decide (31 ≤ s.queue.records.length) } }
         command := answered .done }) ∧
     (∀ lane, arg.toNat % 4 = (laneCode lane).toNat → s.command.partState = .run → (s.health.get lane).state ≠ .off →
       exec (.laneEnable arg) s = .next { s with command := answered .state })) ∧
  (∀ (arg : BitVec 8) (s : State) (answered : CmdResult → CommandUnit), s.resetAsserted = false →
     answered = (fun r => { s.command with code := 0x0A, result := r, startError := 0 }) →
     (arg.toNat % 4 = 3 → exec (.laneReadmit arg) s = .next { s with command := answered .arg }) ∧
     (∀ lane, arg.toNat % 4 = (laneCode lane).toNat → s.command.partState = .run → (s.health.get lane).state = .excluded →
       exec (.laneReadmit arg) s = .next
       { s with
         health := s.health.set lane { state := .probation, score := 0, goodRun := 0, mark := false }
         queue := s.queue.offer (.lane { lane := lane, old := .excluded, new := .probation, cause := .readmit, score := 0,
                                         groupSeq := none })
         interrupt := { s.interrupt with flags := { s.interrupt.flags with
           lane := true, overrun := s.interrupt.flags.overrun || decide (31 ≤ s.queue.records.length) } }
         command := answered .done }) ∧
     (∀ lane, arg.toNat % 4 = (laneCode lane).toNat →
       s.command.partState = .config ∨ (s.health.get lane).state ≠ .excluded →
       exec (.laneReadmit arg) s = .next { s with command := answered .state }))

/-- R76, R78, R30: LANE DISABLE: ARG for a lane code of 3; in CONFIG the enable alone is cleared; in RUN it is refused STATE for
an OFF lane and for the only voting lane, and otherwise makes the lane OFF, reports it, and then closes the open groups that the
smaller waiting set completes. -/
def Obligations.LaneDisableSparesTheLastVoter : Prop :=
  ∀ (arg : BitVec 8) (s : State) (answered : CmdResult → CommandUnit), s.resetAsserted = false →
    answered = (fun r => { s.command with code := 0x09, result := r, startError := 0 }) →
    (arg.toNat % 4 = 3 → exec (.laneDisable arg) s = .next { s with command := answered .arg }) ∧
    (∀ lane, arg.toNat % 4 = (laneCode lane).toNat → s.command.partState = .config → exec (.laneDisable arg) s = .next
      { s with laneConfig := s.laneConfig.set lane { s.laneConfig.get lane with enable := false }, command := answered .done }) ∧
    (∀ lane, arg.toNat % 4 = (laneCode lane).toNat → s.command.partState = .run →
      (s.health.get lane).state = .off ∨
        ((s.health.get lane).state.votes = true ∧ ∀ l, l ≠ lane → (s.health.get l).state.votes = false) →
      exec (.laneDisable arg) s = .next { s with command := answered .state }) ∧
    (∀ lane, ∀ u : State, arg.toNat % 4 = (laneCode lane).toNat → s.command.partState = .run →
      (s.health.get lane).state.observes = true ∨
        ((s.health.get lane).state.votes = true ∧ ∃ l, l ≠ lane ∧ (s.health.get l).state.votes = true) →
      u = { s with
            laneConfig := s.laneConfig.set lane { s.laneConfig.get lane with enable := false }
            frontEnds := s.frontEnds.set lane FrontEnd.stopped
            health := s.health.set lane { state := .off, score := 0, goodRun := 0, mark := false }
            queue := s.queue.offer (.lane { lane := lane, old := (s.health.get lane).state, new := .off, cause := .disable,
                                            score := 0, groupSeq := none })
            interrupt := { s.interrupt with flags := { s.interrupt.flags with
              lane := true, overrun := s.interrupt.flags.overrun || decide (31 ≤ s.queue.records.length) } } } →
      exec (.laneDisable arg) s = .next
        { (u.table.groups.filter fun g => g.complete u.laneStates).foldl (fun t g => t.closeGroup .complete g)
            { u with table := { u.table with groups := u.table.groups.filter fun g => !g.complete u.laneStates } } with
          command := answered .done })

/-! ## Commands, registers and interrupts -/

/-- R155, R157, R119, R184: a command code that names no command and an ECTL operation code that names no operation are refused
with no other effect, and a write to a read-only location or an unassigned address is ignored. R184, sections 11.5 to 11.7: a
write of each writable address makes its own command; the thirteen codes of a command word and the three operations of ECTL make
theirs. R185, R186, R187: a read of a word of a pair makes that pair's command, a read of any other address none. R168, R193: an
access is taken with RESET released, chip select and exactly one strobe; the part drives the word read during a read access alone.
That the term of a refused or ignored command whose operands name a command is carried out as that command is the model's choice
(log entry 11). -/
def Obligations.WriteMakesTheAddressedCommandOrNone : Prop :=
  let writable : List Address :=
    [0x01, 0x03, 0x04, 0x05, 0x06, 0x0A, 0x0B, 0x0C, 0x0D, 0x0E, 0x0F, 0x11, 0x12, 0x15, 0x16, 0x17, 0x20, 0x21, 0x22, 0x23, 0x24,
     0x25, 0x2E, 0x40, 0x41, 0x42, 0x43, 0x44, 0x46, 0x48]
  let pairs : List (Pair × Address) :=
    [(.tbase, 0x08), (.healthA, 0x18), (.healthB, 0x1A), (.healthC, 0x1C), (.pmin, 0x20), (.pmax, 0x22), (.stallto, 0x24),
     (.lastanc, 0x26), (.refper, 0x28), (.anccnt, 0x2A), (.rec4, 0x34), (.rec6, 0x36), (.rec8, 0x38), (.rec10, 0x3A),
     (.armnext, 0x4C), (.snaptime, 0x50)]
  (∀ s : State,
     (∀ code arg : BitVec 8, code.toNat = 0 ∨ 0x0E ≤ code.toNat → s.resetAsserted = false → exec (.illegal code arg) s = .next
       { s with command := { s.command with code := code, result := .illegal, startError := 0 } }) ∧
     (∀ (operation : BitVec 3) (index : BitVec 4), 3 ≤ operation.toNat → s.resetAsserted = false →
       exec (.unknownOperation operation index) s = .next
         { s with schedule := { s.schedule with index := index, operation := operation, entryResult := .arg } }) ∧
     (∀ (address : Address) (value : Word), (Instr.registerWrite address value).wellFormed = true →
       exec (.registerWrite address value) s = .next s)) ∧
  (∀ (address : Address) (value : Word),
     (∀ s : State, exec (.registerWrite address value) s = exec (commandOfWrite address value) s) ∧
     (address ∉ writable → commandOfWrite address value = .registerWrite address value ∧
       ∀ s : State, exec (.registerWrite address value) s = .next s)) ∧
  (∀ value : Word,
     commandOfWrite 0x01 value = commandOfCode (value.extractLsb' 8 8) (value.extractLsb' 0 8) ∧
     commandOfWrite 0x03 value = .busstatWrite value ∧ commandOfWrite 0x04 value = .intflagWrite value ∧
     commandOfWrite 0x05 value = .intenWrite value ∧ commandOfWrite 0x06 value = .prescaleWrite value ∧
     commandOfWrite 0x0A value = .lcfgWrite .a value ∧ commandOfWrite 0x0B value = .lcfgWrite .b value ∧
     commandOfWrite 0x0C value = .lcfgWrite .c value ∧ commandOfWrite 0x0D value = .blankWrite .a value ∧
     commandOfWrite 0x0E value = .blankWrite .b value ∧ commandOfWrite 0x0F value = .blankWrite .c value ∧
     commandOfWrite 0x11 value = .gwinWrite value ∧ commandOfWrite 0x12 value = .votecfgWrite value ∧
     commandOfWrite 0x15 value = .hweightWrite value ∧ commandOfWrite 0x16 value = .hlevelWrite value ∧
     commandOfWrite 0x17 value = .hrunWrite value ∧
     commandOfWrite 0x20 value = .pairLowWrite .pmin value ∧ commandOfWrite 0x21 value = .pairHighWrite .pmin value ∧
     commandOfWrite 0x22 value = .pairLowWrite .pmax value ∧ commandOfWrite 0x23 value = .pairHighWrite .pmax value ∧
     commandOfWrite 0x24 value = .pairLowWrite .stallto value ∧ commandOfWrite 0x25 value = .pairHighWrite .stallto value ∧
     commandOfWrite 0x2E value = .qthrWrite value ∧
     commandOfWrite 0x40 value = .stagingWrite .estg0 value ∧ commandOfWrite 0x41 value = .stagingWrite .estg1 value ∧
     commandOfWrite 0x42 value = .stagingWrite .estg2 value ∧ commandOfWrite 0x43 value = .stagingWrite .estg3 value ∧
     (value.extractLsb' 4 3 = 0 → commandOfWrite 0x44 value = .readShadow (value.extractLsb' 0 4)) ∧
     (value.extractLsb' 4 3 = 1 → commandOfWrite 0x44 value = .readActive (value.extractLsb' 0 4)) ∧
     (value.extractLsb' 4 3 = 2 → commandOfWrite 0x44 value = .write (value.extractLsb' 0 4)) ∧
     (3 ≤ (value.extractLsb' 4 3).toNat →
       commandOfWrite 0x44 value = .unknownOperation (value.extractLsb' 4 3) (value.extractLsb' 0 4)) ∧
     commandOfWrite 0x46 value = .schcfgWrite value ∧ commandOfWrite 0x48 value = .outcfgWrite value) ∧
  (∀ arg : BitVec 8,
     commandOfCode 0x01 arg = .start arg ∧ commandOfCode 0x02 arg = .stop arg ∧ commandOfCode 0x03 arg = .softReset arg ∧
     commandOfCode 0x04 arg = .commit arg ∧ commandOfCode 0x05 arg = .cancelCommit arg ∧ commandOfCode 0x06 arg = .flush arg ∧
     commandOfCode 0x07 arg = .force arg ∧ commandOfCode 0x08 arg = .laneEnable arg ∧ commandOfCode 0x09 arg = .laneDisable arg ∧
     commandOfCode 0x0A arg = .laneReadmit arg ∧ commandOfCode 0x0B arg = .ackEvent arg none ∧
     commandOfCode 0x0C arg = .snapshot arg ∧ commandOfCode 0x0D arg = .clearCounters arg ∧
     ∀ code : BitVec 8, code.toNat = 0 ∨ 0x0E ≤ code.toNat → commandOfCode code arg = .illegal code arg) ∧
  (∀ p ∈ pairs, commandOfRead p.2 = some (.pairLowRead p.1) ∧ commandOfRead (p.2 + 1) = some (.pairHighRead p.1)) ∧
  (∀ address : Address, (∀ p ∈ pairs, address ≠ p.2 ∧ address ≠ p.2 + 1) → commandOfRead address = none) ∧
  (∀ (pins : BusPins) (s : State),
     (pins.reset = true ∨ pins.chipSelect = false ∨ pins.readStrobe = pins.writeStrobe →
       commandOfAccess pins = none ∧ s.dataBus pins = none) ∧
     (pins.reset = false → pins.chipSelect = true → pins.readStrobe = false → pins.writeStrobe = true →
       commandOfAccess pins = some (commandOfWrite pins.address pins.data) ∧ s.dataBus pins = none) ∧
     (pins.reset = false → pins.chipSelect = true → pins.readStrobe = true → pins.writeStrobe = false →
       commandOfAccess pins = commandOfRead pins.address ∧
       (s.resetAsserted = false → s.dataBus pins = some (s.readAddress pins.address)) ∧
       (s.resetAsserted = true → s.dataBus pins = none)))

/-- R169, R172, R190: in RUN a write of any CONFIG-only register, whatever its value, sets bus status STATE and the ACCESS flag
and changes nothing else. -/
def Obligations.ConfigOnlyWriteInRunIsIgnored : Prop :=
  ∀ (value : Word) (lane : Lane) (c : Instr) (s : State), s.resetAsserted = false → s.command.partState = .run →
    c ∈ [Instr.prescaleWrite value, .lcfgWrite lane value, .blankWrite lane value, .gwinWrite value, .votecfgWrite value,
      .hweightWrite value, .hlevelWrite value, .hrunWrite value, .qthrWrite value, .schcfgWrite value] →
    exec c s = .next
      { s with
        window := { s.window with busStatus := { s.window.busStatus with state := true } }
        interrupt := { s.interrupt with flags := { s.interrupt.flags with access := true } } }

/-- R3, R14, R21, R49: in CONFIG, PRESCALE takes 0..7, LCFGx a polarity code of 0..2 with a filter length of 1..16, BLANKx
and VOTECFG anything, GWIN 0..32,767. That the division restarts is held as the model's mark of it (log entry 6). R63, R64,
R65, R114, R122: in CONFIG, HWEIGHT, HLEVEL and HRUN take two fields other than 0, QTHR takes 1..32, and SCHCFG anything. -/
def Obligations.ConfigWriteInRangeIsTaken : Prop :=
  (∀ (value : Word) (lane : Lane) (s : State), s.resetAsserted = false → s.command.partState = .config →
     (value.toNat ≤ 7 → exec (.prescaleWrite value) s = .next
       { s with timebase := { s.timebase with prescale := BitVec.ofNat 3 value.toNat, divisionFrom := .restart } }) ∧
     (∀ polarity, 1 ≤ value.toNat / 16 % 32 → value.toNat / 16 % 32 ≤ 16 →
       (value.toNat / 2 % 4 = 0 ∧ polarity = .rising) ∨ (value.toNat / 2 % 4 = 1 ∧ polarity = .falling) ∨
         (value.toNat / 2 % 4 = 2 ∧ polarity = .both) →
       exec (.lcfgWrite lane value) s = .next
       { s with laneConfig := (s.laneConfig.set lane
           { enable := value.getLsbD 0, polarity := polarity, filter := value.toNat / 16 % 32,
             blanking := (s.laneConfig.get lane).blanking }) }) ∧
     exec (.blankWrite lane value) s = .next
       { s with laneConfig := s.laneConfig.set lane { s.laneConfig.get lane with blanking := value } } ∧
     (value.toNat ≤ 32767 → exec (.gwinWrite value) s = .next
       { s with table := { s.table with window := value.toNat } }) ∧
     exec (.votecfgWrite value) s = .next
       { s with vote := { tolerance := value.toNat % 32768, singleLane := value.getLsbD 15 } }) ∧
  (∀ (value : Word) (s : State), s.resetAsserted = false → s.command.partState = .config →
     (value.toNat % 16 ≠ 0 → value.toNat / 16 % 16 ≠ 0 → exec (.hweightWrite value) s = .next
       { s with healthConfig := { s.healthConfig with
           missWeight := value.toNat % 16, deviantWeight := value.toNat / 16 % 16, autoReadmit := value.getLsbD 8 } }) ∧
     (value.toNat % 64 ≠ 0 → value.toNat / 256 % 64 ≠ 0 → exec (.hlevelWrite value) s = .next
       { s with healthConfig := { s.healthConfig with suspect := value.toNat % 64, exclude := value.toNat / 256 % 64 } }) ∧
     (value.toNat % 256 ≠ 0 → value.toNat / 256 ≠ 0 → exec (.hrunWrite value) s = .next
       { s with healthConfig := { s.healthConfig with probation := value.toNat % 256, readmit := value.toNat / 256 } }) ∧
     (1 ≤ value.toNat → value.toNat ≤ 32 → exec (.qthrWrite value) s = .next
       { s with queue := { s.queue with threshold := value.toNat } }) ∧
     exec (.schcfgWrite value) s = .next
       { s with schedule := { s.schedule with latePolicy := if value.getLsbD 0 = true then .execute else .skip } })

/-- R3, R14, R21, R63, R64, R65, R114, R190: in CONFIG, a value out of a register's range is refused as a whole: bus status VALUE
and the ACCESS flag are set, and nothing else changes. -/
def Obligations.ConfigWriteOutOfRangeIsRefused : Prop :=
  ∀ (value : Word) (lane : Lane) (c : Instr) (s : State), s.resetAsserted = false → s.command.partState = .config →
    (c = .prescaleWrite value ∧ 7 < value.toNat) ∨
      (c = .lcfgWrite lane value ∧
        (value.toNat / 2 % 4 = 3 ∨ value.toNat / 16 % 32 = 0 ∨ 16 < value.toNat / 16 % 32)) ∨
      (c = .gwinWrite value ∧ 32767 < value.toNat) ∨
      (c = .hweightWrite value ∧ (value.toNat % 16 = 0 ∨ value.toNat / 16 % 16 = 0)) ∨
      (c = .hlevelWrite value ∧ (value.toNat % 64 = 0 ∨ value.toNat / 256 % 64 = 0)) ∨
      (c = .hrunWrite value ∧ (value.toNat % 256 = 0 ∨ value.toNat / 256 = 0)) ∨
      (c = .qthrWrite value ∧ (value.toNat = 0 ∨ 32 < value.toNat)) →
    exec c s = .next
      { s with
        window := { s.window with busStatus := { s.window.busStatus with value := true } }
        interrupt := { s.interrupt with flags := { s.interrupt.flags with access := true } } }

/-- R173, R175, R190: INTEN takes all eight enables; INTFLAG clears each latched flag written with one, and a one at EVENT
LEVEL's place does nothing; BUSSTAT clears each bit written with one and leaves the ACCESS flag. In either part state,
nothing else changes. R113, R171, R176: IRQ is asserted exactly while some flag is set with its enable set, EVENT LEVEL
standing for the queue holding at least the threshold. -/
def Obligations.FlagWritesAndIrq : Prop :=
  (∀ (value : Word) (s : State), s.resetAsserted = false →
     exec (.intenWrite value) s = .next { s with interrupt := { s.interrupt with enables := BitVec.ofNat 8 value.toNat } } ∧
     exec (.intflagWrite value) s = .next { s with interrupt := { s.interrupt with flags :=
       { lane := s.interrupt.flags.lane && !value.getLsbD 1
         stall := s.interrupt.flags.stall && !value.getLsbD 2
         overrun := s.interrupt.flags.overrun && !value.getLsbD 3
         commit := s.interrupt.flags.commit && !value.getLsbD 4
         missed := s.interrupt.flags.missed && !value.getLsbD 5
         limit := s.interrupt.flags.limit && !value.getLsbD 6
         access := s.interrupt.flags.access && !value.getLsbD 7 } } } ∧
     exec (.busstatWrite value) s = .next { s with window := { s.window with busStatus :=
       { order := s.window.busStatus.order && !value.getLsbD 0
         state := s.window.busStatus.state && !value.getLsbD 1
         value := s.window.busStatus.value && !value.getLsbD 2 } } }) ∧
  (∀ s : State, s.irqAsserted = true ↔
     (s.queue.threshold ≤ s.queue.records.length ∧ s.interrupt.enables.getLsbD 0 = true) ∨
     (s.interrupt.flags.lane = true ∧ s.interrupt.enables.getLsbD 1 = true) ∨
     (s.interrupt.flags.stall = true ∧ s.interrupt.enables.getLsbD 2 = true) ∨
     (s.interrupt.flags.overrun = true ∧ s.interrupt.enables.getLsbD 3 = true) ∨
     (s.interrupt.flags.commit = true ∧ s.interrupt.enables.getLsbD 4 = true) ∨
     (s.interrupt.flags.missed = true ∧ s.interrupt.enables.getLsbD 5 = true) ∨
     (s.interrupt.flags.limit = true ∧ s.interrupt.enables.getLsbD 6 = true) ∨
     (s.interrupt.flags.access = true ∧ s.interrupt.enables.getLsbD 7 = true))

/-- R179, R181: SNAPSHOT copies all the live counters and the time into the bank and sets taken; CLEAR COUNTERS zeroes the live
counters alone. Both answer DONE, in either part state, whatever their argument. -/
def Obligations.SnapshotCopiesAndClearZeroes : Prop :=
  ∀ (arg : BitVec 8) (s : State), s.resetAsserted = false →
    exec (.snapshot arg) s = .next
      { s with
        stats := { live := s.stats.live, bank := s.stats.live, time := s.timebase.now, taken := true }
        command := { s.command with code := 0x0C, result := .done, startError := 0 } } ∧
    exec (.clearCounters arg) s = .next
      { s with
        stats := { s.stats with live := Counters.zero }
        command := { s.command with code := 0x0D, result := .done, startError := 0 } }

/-! ## The register window -/

/-- R186, R187: a read of a pair's low word returns the live low word and holds the live high word under the pair's tag; a read of
its high word returns the held word and drops a matching tag, or returns the live word and sets ORDER and ACCESS. The word
returned stands in the model's own readData (log entry 8). R188, R189: a write of a writable pair's high word loads the write hold
and changes nothing else; a write of the low word without a matching tag is ignored and sets ORDER and ACCESS, the hold left as it
stands. R4, R81, R93, R97, R151, R180, R185, R192: the value each of the sixteen pairs shows; a pair of the record window is 0
where the head has no field there and with the queue empty. -/
def Obligations.PairAccessesGoThroughTheHolds : Prop :=
  let stateCode : LaneState → BitVec 3 := fun state =>
    match state with
    | .idle => 0 | .off => 1 | .active => 2 | .suspect => 3 | .probation => 4 | .excluded => 5
  let health : HealthRecord → Time := fun h =>
    0#8 ++ BitVec.ofNat 8 h.goodRun ++ 0#2 ++ BitVec.ofNat 6 h.score ++ BitVec.ofBool h.mark ++ 0#4 ++ stateCode h.state
  (∀ (pair : Pair) (s : State), s.resetAsserted = false →
     exec (.pairLowRead pair) s = .next
       { s with window := { s.window with readValue := (s.pairValue pair).extractLsb' 16 16, readTag := some pair,
                                          readData := (s.pairValue pair).extractLsb' 0 16 } } ∧
     (s.window.readTag = some pair → exec (.pairHighRead pair) s = .next
       { s with window := { s.window with readTag := none, readData := s.window.readValue } }) ∧
     (s.window.readTag ≠ some pair → exec (.pairHighRead pair) s = .next
       { s with
         window := { s.window with readData := (s.pairValue pair).extractLsb' 16 16,
                                   busStatus := { s.window.busStatus with order := true } }
         interrupt := { s.interrupt with flags := { s.interrupt.flags with access := true } } })) ∧
  (∀ (pair : WritablePair) (value : Word) (s : State), s.resetAsserted = false →
     exec (.pairHighWrite pair value) s = .next
       { s with window := { s.window with writeValue := value, writeTag := some pair } } ∧
     (s.window.writeTag ≠ some pair → exec (.pairLowWrite pair value) s = .next
       { s with
         window := { s.window with busStatus := { s.window.busStatus with order := true } }
         interrupt := { s.interrupt with flags := { s.interrupt.flags with access := true } } })) ∧
  (∀ s : State,
     s.pairValue .tbase = s.timebase.now ∧
     s.pairValue .healthA = health s.health.a ∧ s.pairValue .healthB = health s.health.b ∧
     s.pairValue .healthC = health s.health.c ∧
     s.pairValue .pmin = s.limits.lower ∧ s.pairValue .pmax = s.limits.upper ∧ s.pairValue .stallto = s.limits.timeout ∧
     s.pairValue .lastanc = s.tracker.lastAnchor.getD 0 ∧ s.pairValue .refper = s.tracker.refPeriod.getD 0 ∧
     s.pairValue .anccnt = s.tracker.anchorCount ∧
     s.pairValue .armnext = (match s.armed with | [] => 0 | x :: _ => x.due) ∧
     s.pairValue .snaptime = s.stats.time ∧
     (s.queue.records = [] →
       s.pairValue .rec4 = 0 ∧ s.pairValue .rec6 = 0 ∧ s.pairValue .rec8 = 0 ∧ s.pairValue .rec10 = 0) ∧
     (∀ head rest, s.queue.records = head :: rest →
       s.pairValue .rec4 =
         (match head.body with
          | .start time _ | .stop time _ _ => time
          | .group g => g.reference
          | .stall expiry _ => expiry
          | .lane _ | .commit _ _ | .missed _ _ _ _ | .overrun _ => 0) ∧
       s.pairValue .rec6 =
         (match head.body with
          | .group g => g.votedTime.getD 0
          | .stall _ last => last.getD 0
          | .start _ _ | .stop _ _ _ | .lane _ | .commit _ _ | .missed _ _ _ _ | .overrun _ => 0) ∧
       s.pairValue .rec8 =
         (match head.body with
          | .group g => g.anchorIndex.getD 0
          | .commit _ anchor | .missed _ _ anchor _ => anchor
          | .start _ _ | .stop _ _ _ | .lane _ | .stall _ _ | .overrun _ => 0) ∧
       s.pairValue .rec10 =
         (match head.body with
          | .group g => g.rawPeriod.getD 0
          | .start _ _ | .stop _ _ _ | .lane _ | .stall _ _ | .commit _ _ | .missed _ _ _ _ | .overrun _ => 0)))

/-- R1: the comparison of two times. -/
def Obligations.NotLaterThanIsTheHalfRangeComparison : Prop :=
  ∀ a b : Time, (notLater a b = true ↔ (b - a).toNat < 2 ^ 31) ∧ (later a b = true ↔ ¬notLater a b = true)

/-- R4, R14, R15, R21, R34, R38, R49, R63, R64, R65, R97, R98, R99, R114, R118, R119, R121, R122, R123, R146, R151, R152, R154,
R157, R171, R175, R179, R180, R183, R190, sections 11.5 to 11.8: the word every location reads, bit by bit, the unassigned ones 0.
R186, R187: a word of a pair reads a half of the pair's value, but for the held word under a matching tag. R110, R186, R187,
R192, section 11.9: the sixteen words of the record window, for each kind of head, all 0 with the queue empty; whatever capture is
held, but for the one high word whose own pair it names. -/
def Obligations.ReadsShowTheStateAndTheHead : Prop :=
  let stateCode : LaneState → BitVec 3 := fun state =>
    match state with
    | .idle => 0 | .off => 1 | .active => 2 | .suspect => 3 | .probation => 4 | .excluded => 5
  let bankCode : Bank → BitVec 1 := fun bank => match bank with | .a => 0 | .b => 1
  let lineBits : Lines Bool → BitVec 4 := fun v =>
    BitVec.ofBool v.out3 ++ BitVec.ofBool v.out2 ++ BitVec.ofBool v.out1 ++ BitVec.ofBool v.out0
  let low : Time → Word := fun t => t.extractLsb' 0 16
  let high : Time → Word := fun t => t.extractLsb' 16 16
  let recordWords : List Record → List Word := fun records =>
    match records with
    | [] => List.replicate 16 0
    | head :: _ =>
      match head.body with
      | .start time states =>
        [1, head.seq, 0#7 ++ stateCode states.c ++ stateCode states.b ++ stateCode states.a, 0, low time, high time,
          0, 0, 0, 0, 0, 0, 0, 0, 0, 0]
      | .stop time flushed discarded =>
        [2, head.seq, BitVec.ofNat 16 flushed, BitVec.ofNat 16 discarded, low time, high time, 0, 0, 0, 0, 0, 0, 0, 0, 0, 0]
      | .group g =>
        let assessed : Assessment → BitVec 2 := fun a =>
          match a with
          | .good => 0 | .deviant => 1 | .missing => 2 | .neutral => 3
        let offset : Option Int → Word := fun o => BitVec.ofInt 16 (o.getD 0)
        [0#6 ++ assessed g.assessments.c ++ assessed g.assessments.b ++ assessed g.assessments.a ++ 3#4, head.seq, g.seq,
          0#2 ++ BitVec.ofBool g.rawPeriod.isSome ++ BitVec.ofBool g.anchorIndex.isSome ++ BitVec.ofBool g.votedTime.isSome ++
            BitVec.ofBool g.offsets.c.isSome ++ BitVec.ofBool g.offsets.b.isSome ++ BitVec.ofBool g.offsets.a.isSome ++
            (match g.limiter with | none | some .within => 0#2 | some .below => 1#2 | some .above => 2#2 : BitVec 2) ++
            BitVec.ofBool g.outOfOrder ++
            (match g.voteClass with
              | .full => 0#3 | .pair => 1#3 | .split => 2#3 | .degraded => 3#3 | .unvoted => 4#3 : BitVec 3) ++
            (match g.reason with | .complete => 0#2 | .expired => 1#2 | .evicted => 2#2 | .stopped => 3#2 : BitVec 2),
          low g.reference, high g.reference, low (g.votedTime.getD 0), high (g.votedTime.getD 0),
          low (g.anchorIndex.getD 0), high (g.anchorIndex.getD 0), low (g.rawPeriod.getD 0), high (g.rawPeriod.getD 0),
          offset g.offsets.a, offset g.offsets.b, offset g.offsets.c, BitVec.ofNat 16 (g.spread.getD 0)]
      | .lane l =>
        [4, head.seq, l.groupSeq.getD 0,
          0#5 ++ BitVec.ofBool l.groupSeq.isSome ++
            (match l.cause with | .assessment => 0#2 | .enable => 1#2 | .disable => 2#2 | .readmit => 3#2 : BitVec 2) ++
            stateCode l.new ++ stateCode l.old ++ (match l.lane with | .a => 0#2 | .b => 1#2 | .c => 2#2 : BitVec 2),
          0, 0, 0, 0, 0, 0, 0, 0, BitVec.ofNat 16 l.score, 0, 0, 0]
      | .stall expiry last =>
        [5, head.seq, 0, 0#15 ++ BitVec.ofBool last.isSome, low expiry, high expiry, low (last.getD 0), high (last.getD 0),
          0, 0, 0, 0, 0, 0, 0, 0]
      | .commit bank anchor =>
        [6, head.seq, 0#15 ++ bankCode bank, 0, 0, 0, 0, 0, low anchor, high anchor, 0, 0, 0, 0, 0, 0]
      | .missed entry bank anchor reason =>
        [7, head.seq,
          0#9 ++ (match reason with | .full => 0#2 | .late => 1#2 | .noPeriod => 2#2 : BitVec 2) ++ bankCode bank ++
            BitVec.ofNat 4 entry,
          0, 0, 0, 0, 0, low anchor, high anchor, 0, 0, 0, 0, 0, 0]
      | .overrun dropped => [8, head.seq, dropped, 0, 0, 0, 0, 0, 0, 0, 0, 0, 0, 0, 0, 0]
  ∀ s : State,
    let entryWindow : BitVec 7 := s.schedule.operation ++ s.schedule.index
    let sampled : Lane → Bool := fun l =>
      s.command.partState = .run ∧ (s.health.get l).state ≠ .idle ∧ (s.health.get l).state ≠ .off
    let levels : Lane → BitVec 2 := fun l =>
      BitVec.ofBool (sampled l) ++ BitVec.ofBool (sampled l && (s.frontEnds.get l).level)
    let pinLevel : Line → Bool := fun line => if s.output.enable.get line then s.output.latch.get line else s.output.safe.get line
    let holdsFor : Line → Bool := fun line => s.armed.any fun x => x.line = line
    let laneCounts : LaneCounters → List Word := fun c => [c.accepted, c.glitches, c.blanked, c.deviant, c.missing]
    let words (first count : Nat) : List Word := (List.range count).map fun i => s.readAddress (BitVec.ofNat 7 (first + i))
    -- Run control and bus status.
    s.readAddress 0x00 =
      0#13 ++ (match s.command.entryCause with | .hard => 0#2 | .soft => 1#2 | .stop => 2#2 : BitVec 2) ++
        (match s.command.partState with | .config => 0#1 | .run => 1#1 : BitVec 1) ∧
    s.readAddress 0x01 = 0 ∧
    s.readAddress 0x02 =
      s.command.code ++
        (match s.command.result with
          | .none => 0#4 | .done => 1#4 | .pending => 2#4 | .busy => 3#4 | .state => 4#4 | .arg => 5#4
          | .illegal => 6#4 : BitVec 4) ++
        BitVec.ofNat 4 s.command.startError ∧
    s.readAddress 0x03 =
      0#13 ++ BitVec.ofBool s.window.busStatus.value ++ BitVec.ofBool s.window.busStatus.state ++
        BitVec.ofBool s.window.busStatus.order ∧
    -- Interrupts.
    s.readAddress 0x04 =
      0#8 ++ BitVec.ofBool s.interrupt.flags.access ++ BitVec.ofBool s.interrupt.flags.limit ++
        BitVec.ofBool s.interrupt.flags.missed ++ BitVec.ofBool s.interrupt.flags.commit ++
        BitVec.ofBool s.interrupt.flags.overrun ++ BitVec.ofBool s.interrupt.flags.stall ++
        BitVec.ofBool s.interrupt.flags.lane ++ BitVec.ofBool (s.queue.threshold ≤ s.queue.records.length) ∧
    s.readAddress 0x05 = 0#8 ++ s.interrupt.enables ∧
    -- Timebase, lane inputs, group table and vote.
    s.readAddress 0x06 = 0#13 ++ s.timebase.prescale ∧
    (∀ p ∈ [((0x0A : Address), (0x0D : Address), s.laneConfig.a), (0x0B, 0x0E, s.laneConfig.b), (0x0C, 0x0F, s.laneConfig.c)],
      s.readAddress p.1 =
        0#7 ++ BitVec.ofNat 5 p.2.2.filter ++ 0#1 ++
          (match p.2.2.polarity with | .rising => 0#2 | .falling => 1#2 | .both => 2#2 : BitVec 2) ++ BitVec.ofBool p.2.2.enable ∧
      s.readAddress p.2.1 = p.2.2.blanking) ∧
    s.readAddress 0x10 = 0#10 ++ levels .c ++ levels .b ++ levels .a ∧
    s.readAddress 0x11 = BitVec.ofNat 16 s.table.window ∧
    s.readAddress 0x12 = BitVec.ofBool s.vote.singleLane ++ BitVec.ofNat 15 s.vote.tolerance ∧
    s.readAddress 0x13 = 0#4 ++ BitVec.ofNat 4 s.table.settle ++ 0#5 ++ BitVec.ofNat 3 s.table.groups.length ∧
    s.readAddress 0x14 = s.table.seq ∧
    -- Lane health and tracker.
    s.readAddress 0x15 =
      0#7 ++ BitVec.ofBool s.healthConfig.autoReadmit ++ BitVec.ofNat 4 s.healthConfig.deviantWeight ++
        BitVec.ofNat 4 s.healthConfig.missWeight ∧
    s.readAddress 0x16 = 0#2 ++ BitVec.ofNat 6 s.healthConfig.exclude ++ 0#2 ++ BitVec.ofNat 6 s.healthConfig.suspect ∧
    s.readAddress 0x17 = BitVec.ofNat 8 s.healthConfig.readmit ++ BitVec.ofNat 8 s.healthConfig.probation ∧
    s.readAddress 0x1E =
      0#13 ++ BitVec.ofBool s.tracker.refPeriod.isSome ++ BitVec.ofBool s.tracker.lastAnchor.isSome ++
        (match s.tracker.stall with | .watching => 0#1 | .stalled => 1#1 : BitVec 1) ∧
    -- Event queue.
    s.readAddress 0x2C = 0#10 ++ BitVec.ofNat 6 s.queue.records.length ∧
    s.readAddress 0x2D = s.queue.seq ∧
    s.readAddress 0x2E = BitVec.ofNat 16 s.queue.threshold ∧
    -- Schedule banks.
    s.readAddress 0x40 =
      0#4 ++ (match s.schedule.staging.mode with | .ticks => 0#1 | .fraction => 1#1 : BitVec 1) ++
        s.schedule.staging.exponent ++ 0#1 ++ s.schedule.staging.action ++ 0#1 ++
        (match s.schedule.staging.line with | .out0 => 0#2 | .out1 => 1#2 | .out2 => 2#2 | .out3 => 3#2 : BitVec 2) ++
        BitVec.ofBool s.schedule.staging.enabled ∧
    s.readAddress 0x41 = s.schedule.staging.delayHigh ++ 0#2 ++ s.schedule.staging.phase ∧
    s.readAddress 0x42 = s.schedule.staging.delayLow ∧
    s.readAddress 0x43 = s.schedule.staging.width ∧
    s.readAddress 0x44 = 0#9 ++ entryWindow ∧
    s.readAddress 0x45 =
      0#6 ++ (match s.schedule.entryResult with | .none => 0#2 | .done => 1#2 | .busy => 2#2 | .arg => 3#2 : BitVec 2) ++ 0#1 ++
        entryWindow ∧
    s.readAddress 0x46 = 0#15 ++ (match s.schedule.latePolicy with | .skip => 0#1 | .execute => 1#1 : BitVec 1) ∧
    s.readAddress 0x47 =
      0#11 ++ bankCode s.schedule.active ++ 0#2 ++
        (match s.schedule.commit with | .none => 0#2 | .pending => 1#2 | .done => 2#2 | .cancelled => 3#2 : BitVec 2) ∧
    -- Output lines and armed list.
    s.readAddress 0x48 = 0#8 ++ lineBits s.output.safe ++ lineBits s.output.enable ∧
    s.readAddress 0x49 = 0#8 ++ lineBits (Lines.build pinLevel) ++ lineBits s.output.latch ∧
    s.readAddress 0x4A = 0#4 ++ lineBits (Lines.build holdsFor) ++ 0#3 ++ BitVec.ofNat 5 s.armed.length ∧
    -- Statistics.
    s.readAddress 0x4E = 0#15 ++ BitVec.ofBool s.stats.taken ∧
    words 0x52 23 =
      laneCounts s.stats.bank.lanes.a ++ laneCounts s.stats.bank.lanes.b ++ laneCounts s.stats.bank.lanes.c ++
        [s.stats.bank.complete, s.stats.bank.expired, s.stats.bank.evicted, s.stats.bank.unvoted, s.stats.bank.split,
          s.stats.bank.outOfOrder, s.stats.bank.lateExecutes, s.stats.bank.missed] ∧
    -- Unassigned addresses.
    (∀ address : Address,
      address = 0x07 ∨ address = 0x1F ∨ address = 0x2F ∨ address = 0x4B ∨ address = 0x4F ∨ 0x69 ≤ address.toNat →
      s.readAddress address = 0) ∧
    -- Pairs.
    (∀ p ∈ [(Pair.tbase, (0x08 : Address)), (.healthA, 0x18), (.healthB, 0x1A), (.healthC, 0x1C), (.pmin, 0x20), (.pmax, 0x22),
        (.stallto, 0x24), (.lastanc, 0x26), (.refper, 0x28), (.anccnt, 0x2A), (.rec4, 0x34), (.rec6, 0x36), (.rec8, 0x38),
        (.rec10, 0x3A), (.armnext, 0x4C), (.snaptime, 0x50)],
      s.readAddress p.2 = low (s.pairValue p.1) ∧
      s.readAddress (p.2 + 1) = if s.window.readTag = some p.1 then s.window.readValue else high (s.pairValue p.1)) ∧
    -- The record window.
    (∀ i < 16, (∀ p ∈ [(Pair.rec4, 5), (.rec6, 7), (.rec8, 9), (.rec10, 11)], p.2 = i → s.window.readTag ≠ some p.1) →
      s.readAddress (BitVec.ofNat 7 (0x30 + i)) = (recordWords s.queue.records).getD i 0)
end

