-- ==== Sys2Proof/Laws/State.lean ====
section
/-! SUPPORT. One lemma per field per field update, so that no later proof unfolds an update of the state. -/

namespace Sys2Proof.Machine

variable (s : State)

section
variable (x : Bool)
@[simp] theorem State.setResetAsserted_resetAsserted : (s.setResetAsserted x).resetAsserted = x := rfl
@[simp] theorem State.setResetAsserted_timebase : (s.setResetAsserted x).timebase = s.timebase := rfl
@[simp] theorem State.setResetAsserted_lanePins : (s.setResetAsserted x).lanePins = s.lanePins := rfl
@[simp] theorem State.setResetAsserted_laneConfig : (s.setResetAsserted x).laneConfig = s.laneConfig := rfl
@[simp] theorem State.setResetAsserted_frontEnds : (s.setResetAsserted x).frontEnds = s.frontEnds := rfl
@[simp] theorem State.setResetAsserted_table : (s.setResetAsserted x).table = s.table := rfl
@[simp] theorem State.setResetAsserted_vote : (s.setResetAsserted x).vote = s.vote := rfl
@[simp] theorem State.setResetAsserted_health : (s.setResetAsserted x).health = s.health := rfl
@[simp] theorem State.setResetAsserted_healthConfig : (s.setResetAsserted x).healthConfig = s.healthConfig := rfl
@[simp] theorem State.setResetAsserted_tracker : (s.setResetAsserted x).tracker = s.tracker := rfl
@[simp] theorem State.setResetAsserted_limits : (s.setResetAsserted x).limits = s.limits := rfl
@[simp] theorem State.setResetAsserted_queue : (s.setResetAsserted x).queue = s.queue := rfl
@[simp] theorem State.setResetAsserted_schedule : (s.setResetAsserted x).schedule = s.schedule := rfl
@[simp] theorem State.setResetAsserted_armed : (s.setResetAsserted x).armed = s.armed := rfl
@[simp] theorem State.setResetAsserted_output : (s.setResetAsserted x).output = s.output := rfl
@[simp] theorem State.setResetAsserted_command : (s.setResetAsserted x).command = s.command := rfl
@[simp] theorem State.setResetAsserted_interrupt : (s.setResetAsserted x).interrupt = s.interrupt := rfl
@[simp] theorem State.setResetAsserted_stats : (s.setResetAsserted x).stats = s.stats := rfl
@[simp] theorem State.setResetAsserted_window : (s.setResetAsserted x).window = s.window := rfl
@[simp] theorem State.setResetAsserted_pending : (s.setResetAsserted x).pending = s.pending := rfl
end

section
variable (x : Timebase)
@[simp] theorem State.setTimebase_timebase : (s.setTimebase x).timebase = x := rfl
@[simp] theorem State.setTimebase_lanePins : (s.setTimebase x).lanePins = s.lanePins := rfl
@[simp] theorem State.setTimebase_laneConfig : (s.setTimebase x).laneConfig = s.laneConfig := rfl
@[simp] theorem State.setTimebase_frontEnds : (s.setTimebase x).frontEnds = s.frontEnds := rfl
@[simp] theorem State.setTimebase_table : (s.setTimebase x).table = s.table := rfl
@[simp] theorem State.setTimebase_vote : (s.setTimebase x).vote = s.vote := rfl
@[simp] theorem State.setTimebase_health : (s.setTimebase x).health = s.health := rfl
@[simp] theorem State.setTimebase_healthConfig : (s.setTimebase x).healthConfig = s.healthConfig := rfl
@[simp] theorem State.setTimebase_tracker : (s.setTimebase x).tracker = s.tracker := rfl
@[simp] theorem State.setTimebase_limits : (s.setTimebase x).limits = s.limits := rfl
@[simp] theorem State.setTimebase_queue : (s.setTimebase x).queue = s.queue := rfl
@[simp] theorem State.setTimebase_schedule : (s.setTimebase x).schedule = s.schedule := rfl
@[simp] theorem State.setTimebase_armed : (s.setTimebase x).armed = s.armed := rfl
@[simp] theorem State.setTimebase_output : (s.setTimebase x).output = s.output := rfl
@[simp] theorem State.setTimebase_command : (s.setTimebase x).command = s.command := rfl
@[simp] theorem State.setTimebase_interrupt : (s.setTimebase x).interrupt = s.interrupt := rfl
@[simp] theorem State.setTimebase_stats : (s.setTimebase x).stats = s.stats := rfl
@[simp] theorem State.setTimebase_window : (s.setTimebase x).window = s.window := rfl
@[simp] theorem State.setTimebase_pending : (s.setTimebase x).pending = s.pending := rfl
@[simp] theorem State.setTimebase_resetAsserted : (s.setTimebase x).resetAsserted = s.resetAsserted := rfl
end

section
variable (x : Lanes Bool)
@[simp] theorem State.setLanePins_timebase : (s.setLanePins x).timebase = s.timebase := rfl
@[simp] theorem State.setLanePins_lanePins : (s.setLanePins x).lanePins = x := rfl
@[simp] theorem State.setLanePins_laneConfig : (s.setLanePins x).laneConfig = s.laneConfig := rfl
@[simp] theorem State.setLanePins_frontEnds : (s.setLanePins x).frontEnds = s.frontEnds := rfl
@[simp] theorem State.setLanePins_table : (s.setLanePins x).table = s.table := rfl
@[simp] theorem State.setLanePins_vote : (s.setLanePins x).vote = s.vote := rfl
@[simp] theorem State.setLanePins_health : (s.setLanePins x).health = s.health := rfl
@[simp] theorem State.setLanePins_healthConfig : (s.setLanePins x).healthConfig = s.healthConfig := rfl
@[simp] theorem State.setLanePins_tracker : (s.setLanePins x).tracker = s.tracker := rfl
@[simp] theorem State.setLanePins_limits : (s.setLanePins x).limits = s.limits := rfl
@[simp] theorem State.setLanePins_queue : (s.setLanePins x).queue = s.queue := rfl
@[simp] theorem State.setLanePins_schedule : (s.setLanePins x).schedule = s.schedule := rfl
@[simp] theorem State.setLanePins_armed : (s.setLanePins x).armed = s.armed := rfl
@[simp] theorem State.setLanePins_output : (s.setLanePins x).output = s.output := rfl
@[simp] theorem State.setLanePins_command : (s.setLanePins x).command = s.command := rfl
@[simp] theorem State.setLanePins_interrupt : (s.setLanePins x).interrupt = s.interrupt := rfl
@[simp] theorem State.setLanePins_stats : (s.setLanePins x).stats = s.stats := rfl
@[simp] theorem State.setLanePins_window : (s.setLanePins x).window = s.window := rfl
@[simp] theorem State.setLanePins_pending : (s.setLanePins x).pending = s.pending := rfl
@[simp] theorem State.setLanePins_resetAsserted : (s.setLanePins x).resetAsserted = s.resetAsserted := rfl
end

section
variable (x : Lanes LaneConfig)
@[simp] theorem State.setLaneConfig_timebase : (s.setLaneConfig x).timebase = s.timebase := rfl
@[simp] theorem State.setLaneConfig_lanePins : (s.setLaneConfig x).lanePins = s.lanePins := rfl
@[simp] theorem State.setLaneConfig_laneConfig : (s.setLaneConfig x).laneConfig = x := rfl
@[simp] theorem State.setLaneConfig_frontEnds : (s.setLaneConfig x).frontEnds = s.frontEnds := rfl
@[simp] theorem State.setLaneConfig_table : (s.setLaneConfig x).table = s.table := rfl
@[simp] theorem State.setLaneConfig_vote : (s.setLaneConfig x).vote = s.vote := rfl
@[simp] theorem State.setLaneConfig_health : (s.setLaneConfig x).health = s.health := rfl
@[simp] theorem State.setLaneConfig_healthConfig : (s.setLaneConfig x).healthConfig = s.healthConfig := rfl
@[simp] theorem State.setLaneConfig_tracker : (s.setLaneConfig x).tracker = s.tracker := rfl
@[simp] theorem State.setLaneConfig_limits : (s.setLaneConfig x).limits = s.limits := rfl
@[simp] theorem State.setLaneConfig_queue : (s.setLaneConfig x).queue = s.queue := rfl
@[simp] theorem State.setLaneConfig_schedule : (s.setLaneConfig x).schedule = s.schedule := rfl
@[simp] theorem State.setLaneConfig_armed : (s.setLaneConfig x).armed = s.armed := rfl
@[simp] theorem State.setLaneConfig_output : (s.setLaneConfig x).output = s.output := rfl
@[simp] theorem State.setLaneConfig_command : (s.setLaneConfig x).command = s.command := rfl
@[simp] theorem State.setLaneConfig_interrupt : (s.setLaneConfig x).interrupt = s.interrupt := rfl
@[simp] theorem State.setLaneConfig_stats : (s.setLaneConfig x).stats = s.stats := rfl
@[simp] theorem State.setLaneConfig_window : (s.setLaneConfig x).window = s.window := rfl
@[simp] theorem State.setLaneConfig_pending : (s.setLaneConfig x).pending = s.pending := rfl
@[simp] theorem State.setLaneConfig_resetAsserted : (s.setLaneConfig x).resetAsserted = s.resetAsserted := rfl
end

section
variable (x : Lanes FrontEnd)
@[simp] theorem State.setFrontEnds_timebase : (s.setFrontEnds x).timebase = s.timebase := rfl
@[simp] theorem State.setFrontEnds_lanePins : (s.setFrontEnds x).lanePins = s.lanePins := rfl
@[simp] theorem State.setFrontEnds_laneConfig : (s.setFrontEnds x).laneConfig = s.laneConfig := rfl
@[simp] theorem State.setFrontEnds_frontEnds : (s.setFrontEnds x).frontEnds = x := rfl
@[simp] theorem State.setFrontEnds_table : (s.setFrontEnds x).table = s.table := rfl
@[simp] theorem State.setFrontEnds_vote : (s.setFrontEnds x).vote = s.vote := rfl
@[simp] theorem State.setFrontEnds_health : (s.setFrontEnds x).health = s.health := rfl
@[simp] theorem State.setFrontEnds_healthConfig : (s.setFrontEnds x).healthConfig = s.healthConfig := rfl
@[simp] theorem State.setFrontEnds_tracker : (s.setFrontEnds x).tracker = s.tracker := rfl
@[simp] theorem State.setFrontEnds_limits : (s.setFrontEnds x).limits = s.limits := rfl
@[simp] theorem State.setFrontEnds_queue : (s.setFrontEnds x).queue = s.queue := rfl
@[simp] theorem State.setFrontEnds_schedule : (s.setFrontEnds x).schedule = s.schedule := rfl
@[simp] theorem State.setFrontEnds_armed : (s.setFrontEnds x).armed = s.armed := rfl
@[simp] theorem State.setFrontEnds_output : (s.setFrontEnds x).output = s.output := rfl
@[simp] theorem State.setFrontEnds_command : (s.setFrontEnds x).command = s.command := rfl
@[simp] theorem State.setFrontEnds_interrupt : (s.setFrontEnds x).interrupt = s.interrupt := rfl
@[simp] theorem State.setFrontEnds_stats : (s.setFrontEnds x).stats = s.stats := rfl
@[simp] theorem State.setFrontEnds_window : (s.setFrontEnds x).window = s.window := rfl
@[simp] theorem State.setFrontEnds_pending : (s.setFrontEnds x).pending = s.pending := rfl
@[simp] theorem State.setFrontEnds_resetAsserted : (s.setFrontEnds x).resetAsserted = s.resetAsserted := rfl
end

section
variable (x : GroupTable)
@[simp] theorem State.setTable_timebase : (s.setTable x).timebase = s.timebase := rfl
@[simp] theorem State.setTable_lanePins : (s.setTable x).lanePins = s.lanePins := rfl
@[simp] theorem State.setTable_laneConfig : (s.setTable x).laneConfig = s.laneConfig := rfl
@[simp] theorem State.setTable_frontEnds : (s.setTable x).frontEnds = s.frontEnds := rfl
@[simp] theorem State.setTable_table : (s.setTable x).table = x := rfl
@[simp] theorem State.setTable_vote : (s.setTable x).vote = s.vote := rfl
@[simp] theorem State.setTable_health : (s.setTable x).health = s.health := rfl
@[simp] theorem State.setTable_healthConfig : (s.setTable x).healthConfig = s.healthConfig := rfl
@[simp] theorem State.setTable_tracker : (s.setTable x).tracker = s.tracker := rfl
@[simp] theorem State.setTable_limits : (s.setTable x).limits = s.limits := rfl
@[simp] theorem State.setTable_queue : (s.setTable x).queue = s.queue := rfl
@[simp] theorem State.setTable_schedule : (s.setTable x).schedule = s.schedule := rfl
@[simp] theorem State.setTable_armed : (s.setTable x).armed = s.armed := rfl
@[simp] theorem State.setTable_output : (s.setTable x).output = s.output := rfl
@[simp] theorem State.setTable_command : (s.setTable x).command = s.command := rfl
@[simp] theorem State.setTable_interrupt : (s.setTable x).interrupt = s.interrupt := rfl
@[simp] theorem State.setTable_stats : (s.setTable x).stats = s.stats := rfl
@[simp] theorem State.setTable_window : (s.setTable x).window = s.window := rfl
@[simp] theorem State.setTable_pending : (s.setTable x).pending = s.pending := rfl
@[simp] theorem State.setTable_resetAsserted : (s.setTable x).resetAsserted = s.resetAsserted := rfl
end

section
variable (x : VoteConfig)
@[simp] theorem State.setVote_timebase : (s.setVote x).timebase = s.timebase := rfl
@[simp] theorem State.setVote_lanePins : (s.setVote x).lanePins = s.lanePins := rfl
@[simp] theorem State.setVote_laneConfig : (s.setVote x).laneConfig = s.laneConfig := rfl
@[simp] theorem State.setVote_frontEnds : (s.setVote x).frontEnds = s.frontEnds := rfl
@[simp] theorem State.setVote_table : (s.setVote x).table = s.table := rfl
@[simp] theorem State.setVote_vote : (s.setVote x).vote = x := rfl
@[simp] theorem State.setVote_health : (s.setVote x).health = s.health := rfl
@[simp] theorem State.setVote_healthConfig : (s.setVote x).healthConfig = s.healthConfig := rfl
@[simp] theorem State.setVote_tracker : (s.setVote x).tracker = s.tracker := rfl
@[simp] theorem State.setVote_limits : (s.setVote x).limits = s.limits := rfl
@[simp] theorem State.setVote_queue : (s.setVote x).queue = s.queue := rfl
@[simp] theorem State.setVote_schedule : (s.setVote x).schedule = s.schedule := rfl
@[simp] theorem State.setVote_armed : (s.setVote x).armed = s.armed := rfl
@[simp] theorem State.setVote_output : (s.setVote x).output = s.output := rfl
@[simp] theorem State.setVote_command : (s.setVote x).command = s.command := rfl
@[simp] theorem State.setVote_interrupt : (s.setVote x).interrupt = s.interrupt := rfl
@[simp] theorem State.setVote_stats : (s.setVote x).stats = s.stats := rfl
@[simp] theorem State.setVote_window : (s.setVote x).window = s.window := rfl
@[simp] theorem State.setVote_pending : (s.setVote x).pending = s.pending := rfl
@[simp] theorem State.setVote_resetAsserted : (s.setVote x).resetAsserted = s.resetAsserted := rfl
end

section
variable (x : Lanes HealthRecord)
@[simp] theorem State.setHealth_timebase : (s.setHealth x).timebase = s.timebase := rfl
@[simp] theorem State.setHealth_lanePins : (s.setHealth x).lanePins = s.lanePins := rfl
@[simp] theorem State.setHealth_laneConfig : (s.setHealth x).laneConfig = s.laneConfig := rfl
@[simp] theorem State.setHealth_frontEnds : (s.setHealth x).frontEnds = s.frontEnds := rfl
@[simp] theorem State.setHealth_table : (s.setHealth x).table = s.table := rfl
@[simp] theorem State.setHealth_vote : (s.setHealth x).vote = s.vote := rfl
@[simp] theorem State.setHealth_health : (s.setHealth x).health = x := rfl
@[simp] theorem State.setHealth_healthConfig : (s.setHealth x).healthConfig = s.healthConfig := rfl
@[simp] theorem State.setHealth_tracker : (s.setHealth x).tracker = s.tracker := rfl
@[simp] theorem State.setHealth_limits : (s.setHealth x).limits = s.limits := rfl
@[simp] theorem State.setHealth_queue : (s.setHealth x).queue = s.queue := rfl
@[simp] theorem State.setHealth_schedule : (s.setHealth x).schedule = s.schedule := rfl
@[simp] theorem State.setHealth_armed : (s.setHealth x).armed = s.armed := rfl
@[simp] theorem State.setHealth_output : (s.setHealth x).output = s.output := rfl
@[simp] theorem State.setHealth_command : (s.setHealth x).command = s.command := rfl
@[simp] theorem State.setHealth_interrupt : (s.setHealth x).interrupt = s.interrupt := rfl
@[simp] theorem State.setHealth_stats : (s.setHealth x).stats = s.stats := rfl
@[simp] theorem State.setHealth_window : (s.setHealth x).window = s.window := rfl
@[simp] theorem State.setHealth_pending : (s.setHealth x).pending = s.pending := rfl
@[simp] theorem State.setHealth_resetAsserted : (s.setHealth x).resetAsserted = s.resetAsserted := rfl
end

section
variable (x : HealthConfig)
@[simp] theorem State.setHealthConfig_timebase : (s.setHealthConfig x).timebase = s.timebase := rfl
@[simp] theorem State.setHealthConfig_lanePins : (s.setHealthConfig x).lanePins = s.lanePins := rfl
@[simp] theorem State.setHealthConfig_laneConfig : (s.setHealthConfig x).laneConfig = s.laneConfig := rfl
@[simp] theorem State.setHealthConfig_frontEnds : (s.setHealthConfig x).frontEnds = s.frontEnds := rfl
@[simp] theorem State.setHealthConfig_table : (s.setHealthConfig x).table = s.table := rfl
@[simp] theorem State.setHealthConfig_vote : (s.setHealthConfig x).vote = s.vote := rfl
@[simp] theorem State.setHealthConfig_health : (s.setHealthConfig x).health = s.health := rfl
@[simp] theorem State.setHealthConfig_healthConfig : (s.setHealthConfig x).healthConfig = x := rfl
@[simp] theorem State.setHealthConfig_tracker : (s.setHealthConfig x).tracker = s.tracker := rfl
@[simp] theorem State.setHealthConfig_limits : (s.setHealthConfig x).limits = s.limits := rfl
@[simp] theorem State.setHealthConfig_queue : (s.setHealthConfig x).queue = s.queue := rfl
@[simp] theorem State.setHealthConfig_schedule : (s.setHealthConfig x).schedule = s.schedule := rfl
@[simp] theorem State.setHealthConfig_armed : (s.setHealthConfig x).armed = s.armed := rfl
@[simp] theorem State.setHealthConfig_output : (s.setHealthConfig x).output = s.output := rfl
@[simp] theorem State.setHealthConfig_command : (s.setHealthConfig x).command = s.command := rfl
@[simp] theorem State.setHealthConfig_interrupt : (s.setHealthConfig x).interrupt = s.interrupt := rfl
@[simp] theorem State.setHealthConfig_stats : (s.setHealthConfig x).stats = s.stats := rfl
@[simp] theorem State.setHealthConfig_window : (s.setHealthConfig x).window = s.window := rfl
@[simp] theorem State.setHealthConfig_pending : (s.setHealthConfig x).pending = s.pending := rfl
@[simp] theorem State.setHealthConfig_resetAsserted : (s.setHealthConfig x).resetAsserted = s.resetAsserted := rfl
end

section
variable (x : Tracker)
@[simp] theorem State.setTracker_timebase : (s.setTracker x).timebase = s.timebase := rfl
@[simp] theorem State.setTracker_lanePins : (s.setTracker x).lanePins = s.lanePins := rfl
@[simp] theorem State.setTracker_laneConfig : (s.setTracker x).laneConfig = s.laneConfig := rfl
@[simp] theorem State.setTracker_frontEnds : (s.setTracker x).frontEnds = s.frontEnds := rfl
@[simp] theorem State.setTracker_table : (s.setTracker x).table = s.table := rfl
@[simp] theorem State.setTracker_vote : (s.setTracker x).vote = s.vote := rfl
@[simp] theorem State.setTracker_health : (s.setTracker x).health = s.health := rfl
@[simp] theorem State.setTracker_healthConfig : (s.setTracker x).healthConfig = s.healthConfig := rfl
@[simp] theorem State.setTracker_tracker : (s.setTracker x).tracker = x := rfl
@[simp] theorem State.setTracker_limits : (s.setTracker x).limits = s.limits := rfl
@[simp] theorem State.setTracker_queue : (s.setTracker x).queue = s.queue := rfl
@[simp] theorem State.setTracker_schedule : (s.setTracker x).schedule = s.schedule := rfl
@[simp] theorem State.setTracker_armed : (s.setTracker x).armed = s.armed := rfl
@[simp] theorem State.setTracker_output : (s.setTracker x).output = s.output := rfl
@[simp] theorem State.setTracker_command : (s.setTracker x).command = s.command := rfl
@[simp] theorem State.setTracker_interrupt : (s.setTracker x).interrupt = s.interrupt := rfl
@[simp] theorem State.setTracker_stats : (s.setTracker x).stats = s.stats := rfl
@[simp] theorem State.setTracker_window : (s.setTracker x).window = s.window := rfl
@[simp] theorem State.setTracker_pending : (s.setTracker x).pending = s.pending := rfl
@[simp] theorem State.setTracker_resetAsserted : (s.setTracker x).resetAsserted = s.resetAsserted := rfl
end

section
variable (x : Limits)
@[simp] theorem State.setLimits_timebase : (s.setLimits x).timebase = s.timebase := rfl
@[simp] theorem State.setLimits_lanePins : (s.setLimits x).lanePins = s.lanePins := rfl
@[simp] theorem State.setLimits_laneConfig : (s.setLimits x).laneConfig = s.laneConfig := rfl
@[simp] theorem State.setLimits_frontEnds : (s.setLimits x).frontEnds = s.frontEnds := rfl
@[simp] theorem State.setLimits_table : (s.setLimits x).table = s.table := rfl
@[simp] theorem State.setLimits_vote : (s.setLimits x).vote = s.vote := rfl
@[simp] theorem State.setLimits_health : (s.setLimits x).health = s.health := rfl
@[simp] theorem State.setLimits_healthConfig : (s.setLimits x).healthConfig = s.healthConfig := rfl
@[simp] theorem State.setLimits_tracker : (s.setLimits x).tracker = s.tracker := rfl
@[simp] theorem State.setLimits_limits : (s.setLimits x).limits = x := rfl
@[simp] theorem State.setLimits_queue : (s.setLimits x).queue = s.queue := rfl
@[simp] theorem State.setLimits_schedule : (s.setLimits x).schedule = s.schedule := rfl
@[simp] theorem State.setLimits_armed : (s.setLimits x).armed = s.armed := rfl
@[simp] theorem State.setLimits_output : (s.setLimits x).output = s.output := rfl
@[simp] theorem State.setLimits_command : (s.setLimits x).command = s.command := rfl
@[simp] theorem State.setLimits_interrupt : (s.setLimits x).interrupt = s.interrupt := rfl
@[simp] theorem State.setLimits_stats : (s.setLimits x).stats = s.stats := rfl
@[simp] theorem State.setLimits_window : (s.setLimits x).window = s.window := rfl
@[simp] theorem State.setLimits_pending : (s.setLimits x).pending = s.pending := rfl
@[simp] theorem State.setLimits_resetAsserted : (s.setLimits x).resetAsserted = s.resetAsserted := rfl
end

section
variable (x : EventQueue)
@[simp] theorem State.setQueue_timebase : (s.setQueue x).timebase = s.timebase := rfl
@[simp] theorem State.setQueue_lanePins : (s.setQueue x).lanePins = s.lanePins := rfl
@[simp] theorem State.setQueue_laneConfig : (s.setQueue x).laneConfig = s.laneConfig := rfl
@[simp] theorem State.setQueue_frontEnds : (s.setQueue x).frontEnds = s.frontEnds := rfl
@[simp] theorem State.setQueue_table : (s.setQueue x).table = s.table := rfl
@[simp] theorem State.setQueue_vote : (s.setQueue x).vote = s.vote := rfl
@[simp] theorem State.setQueue_health : (s.setQueue x).health = s.health := rfl
@[simp] theorem State.setQueue_healthConfig : (s.setQueue x).healthConfig = s.healthConfig := rfl
@[simp] theorem State.setQueue_tracker : (s.setQueue x).tracker = s.tracker := rfl
@[simp] theorem State.setQueue_limits : (s.setQueue x).limits = s.limits := rfl
@[simp] theorem State.setQueue_queue : (s.setQueue x).queue = x := rfl
@[simp] theorem State.setQueue_schedule : (s.setQueue x).schedule = s.schedule := rfl
@[simp] theorem State.setQueue_armed : (s.setQueue x).armed = s.armed := rfl
@[simp] theorem State.setQueue_output : (s.setQueue x).output = s.output := rfl
@[simp] theorem State.setQueue_command : (s.setQueue x).command = s.command := rfl
@[simp] theorem State.setQueue_interrupt : (s.setQueue x).interrupt = s.interrupt := rfl
@[simp] theorem State.setQueue_stats : (s.setQueue x).stats = s.stats := rfl
@[simp] theorem State.setQueue_window : (s.setQueue x).window = s.window := rfl
@[simp] theorem State.setQueue_pending : (s.setQueue x).pending = s.pending := rfl
@[simp] theorem State.setQueue_resetAsserted : (s.setQueue x).resetAsserted = s.resetAsserted := rfl
end

section
variable (x : Schedule)
@[simp] theorem State.setSchedule_timebase : (s.setSchedule x).timebase = s.timebase := rfl
@[simp] theorem State.setSchedule_lanePins : (s.setSchedule x).lanePins = s.lanePins := rfl
@[simp] theorem State.setSchedule_laneConfig : (s.setSchedule x).laneConfig = s.laneConfig := rfl
@[simp] theorem State.setSchedule_frontEnds : (s.setSchedule x).frontEnds = s.frontEnds := rfl
@[simp] theorem State.setSchedule_table : (s.setSchedule x).table = s.table := rfl
@[simp] theorem State.setSchedule_vote : (s.setSchedule x).vote = s.vote := rfl
@[simp] theorem State.setSchedule_health : (s.setSchedule x).health = s.health := rfl
@[simp] theorem State.setSchedule_healthConfig : (s.setSchedule x).healthConfig = s.healthConfig := rfl
@[simp] theorem State.setSchedule_tracker : (s.setSchedule x).tracker = s.tracker := rfl
@[simp] theorem State.setSchedule_limits : (s.setSchedule x).limits = s.limits := rfl
@[simp] theorem State.setSchedule_queue : (s.setSchedule x).queue = s.queue := rfl
@[simp] theorem State.setSchedule_schedule : (s.setSchedule x).schedule = x := rfl
@[simp] theorem State.setSchedule_armed : (s.setSchedule x).armed = s.armed := rfl
@[simp] theorem State.setSchedule_output : (s.setSchedule x).output = s.output := rfl
@[simp] theorem State.setSchedule_command : (s.setSchedule x).command = s.command := rfl
@[simp] theorem State.setSchedule_interrupt : (s.setSchedule x).interrupt = s.interrupt := rfl
@[simp] theorem State.setSchedule_stats : (s.setSchedule x).stats = s.stats := rfl
@[simp] theorem State.setSchedule_window : (s.setSchedule x).window = s.window := rfl
@[simp] theorem State.setSchedule_pending : (s.setSchedule x).pending = s.pending := rfl
@[simp] theorem State.setSchedule_resetAsserted : (s.setSchedule x).resetAsserted = s.resetAsserted := rfl
end

section
variable (x : List ArmedAction)
@[simp] theorem State.setArmed_timebase : (s.setArmed x).timebase = s.timebase := rfl
@[simp] theorem State.setArmed_lanePins : (s.setArmed x).lanePins = s.lanePins := rfl
@[simp] theorem State.setArmed_laneConfig : (s.setArmed x).laneConfig = s.laneConfig := rfl
@[simp] theorem State.setArmed_frontEnds : (s.setArmed x).frontEnds = s.frontEnds := rfl
@[simp] theorem State.setArmed_table : (s.setArmed x).table = s.table := rfl
@[simp] theorem State.setArmed_vote : (s.setArmed x).vote = s.vote := rfl
@[simp] theorem State.setArmed_health : (s.setArmed x).health = s.health := rfl
@[simp] theorem State.setArmed_healthConfig : (s.setArmed x).healthConfig = s.healthConfig := rfl
@[simp] theorem State.setArmed_tracker : (s.setArmed x).tracker = s.tracker := rfl
@[simp] theorem State.setArmed_limits : (s.setArmed x).limits = s.limits := rfl
@[simp] theorem State.setArmed_queue : (s.setArmed x).queue = s.queue := rfl
@[simp] theorem State.setArmed_schedule : (s.setArmed x).schedule = s.schedule := rfl
@[simp] theorem State.setArmed_armed : (s.setArmed x).armed = x := rfl
@[simp] theorem State.setArmed_output : (s.setArmed x).output = s.output := rfl
@[simp] theorem State.setArmed_command : (s.setArmed x).command = s.command := rfl
@[simp] theorem State.setArmed_interrupt : (s.setArmed x).interrupt = s.interrupt := rfl
@[simp] theorem State.setArmed_stats : (s.setArmed x).stats = s.stats := rfl
@[simp] theorem State.setArmed_window : (s.setArmed x).window = s.window := rfl
@[simp] theorem State.setArmed_pending : (s.setArmed x).pending = s.pending := rfl
@[simp] theorem State.setArmed_resetAsserted : (s.setArmed x).resetAsserted = s.resetAsserted := rfl
end

section
variable (x : Output)
@[simp] theorem State.setOutput_timebase : (s.setOutput x).timebase = s.timebase := rfl
@[simp] theorem State.setOutput_lanePins : (s.setOutput x).lanePins = s.lanePins := rfl
@[simp] theorem State.setOutput_laneConfig : (s.setOutput x).laneConfig = s.laneConfig := rfl
@[simp] theorem State.setOutput_frontEnds : (s.setOutput x).frontEnds = s.frontEnds := rfl
@[simp] theorem State.setOutput_table : (s.setOutput x).table = s.table := rfl
@[simp] theorem State.setOutput_vote : (s.setOutput x).vote = s.vote := rfl
@[simp] theorem State.setOutput_health : (s.setOutput x).health = s.health := rfl
@[simp] theorem State.setOutput_healthConfig : (s.setOutput x).healthConfig = s.healthConfig := rfl
@[simp] theorem State.setOutput_tracker : (s.setOutput x).tracker = s.tracker := rfl
@[simp] theorem State.setOutput_limits : (s.setOutput x).limits = s.limits := rfl
@[simp] theorem State.setOutput_queue : (s.setOutput x).queue = s.queue := rfl
@[simp] theorem State.setOutput_schedule : (s.setOutput x).schedule = s.schedule := rfl
@[simp] theorem State.setOutput_armed : (s.setOutput x).armed = s.armed := rfl
@[simp] theorem State.setOutput_output : (s.setOutput x).output = x := rfl
@[simp] theorem State.setOutput_command : (s.setOutput x).command = s.command := rfl
@[simp] theorem State.setOutput_interrupt : (s.setOutput x).interrupt = s.interrupt := rfl
@[simp] theorem State.setOutput_stats : (s.setOutput x).stats = s.stats := rfl
@[simp] theorem State.setOutput_window : (s.setOutput x).window = s.window := rfl
@[simp] theorem State.setOutput_pending : (s.setOutput x).pending = s.pending := rfl
@[simp] theorem State.setOutput_resetAsserted : (s.setOutput x).resetAsserted = s.resetAsserted := rfl
end

section
variable (x : CommandUnit)
@[simp] theorem State.setCommand_timebase : (s.setCommand x).timebase = s.timebase := rfl
@[simp] theorem State.setCommand_lanePins : (s.setCommand x).lanePins = s.lanePins := rfl
@[simp] theorem State.setCommand_laneConfig : (s.setCommand x).laneConfig = s.laneConfig := rfl
@[simp] theorem State.setCommand_frontEnds : (s.setCommand x).frontEnds = s.frontEnds := rfl
@[simp] theorem State.setCommand_table : (s.setCommand x).table = s.table := rfl
@[simp] theorem State.setCommand_vote : (s.setCommand x).vote = s.vote := rfl
@[simp] theorem State.setCommand_health : (s.setCommand x).health = s.health := rfl
@[simp] theorem State.setCommand_healthConfig : (s.setCommand x).healthConfig = s.healthConfig := rfl
@[simp] theorem State.setCommand_tracker : (s.setCommand x).tracker = s.tracker := rfl
@[simp] theorem State.setCommand_limits : (s.setCommand x).limits = s.limits := rfl
@[simp] theorem State.setCommand_queue : (s.setCommand x).queue = s.queue := rfl
@[simp] theorem State.setCommand_schedule : (s.setCommand x).schedule = s.schedule := rfl
@[simp] theorem State.setCommand_armed : (s.setCommand x).armed = s.armed := rfl
@[simp] theorem State.setCommand_output : (s.setCommand x).output = s.output := rfl
@[simp] theorem State.setCommand_command : (s.setCommand x).command = x := rfl
@[simp] theorem State.setCommand_interrupt : (s.setCommand x).interrupt = s.interrupt := rfl
@[simp] theorem State.setCommand_stats : (s.setCommand x).stats = s.stats := rfl
@[simp] theorem State.setCommand_window : (s.setCommand x).window = s.window := rfl
@[simp] theorem State.setCommand_pending : (s.setCommand x).pending = s.pending := rfl
@[simp] theorem State.setCommand_resetAsserted : (s.setCommand x).resetAsserted = s.resetAsserted := rfl
end

section
variable (x : Interrupt)
@[simp] theorem State.setInterrupt_timebase : (s.setInterrupt x).timebase = s.timebase := rfl
@[simp] theorem State.setInterrupt_lanePins : (s.setInterrupt x).lanePins = s.lanePins := rfl
@[simp] theorem State.setInterrupt_laneConfig : (s.setInterrupt x).laneConfig = s.laneConfig := rfl
@[simp] theorem State.setInterrupt_frontEnds : (s.setInterrupt x).frontEnds = s.frontEnds := rfl
@[simp] theorem State.setInterrupt_table : (s.setInterrupt x).table = s.table := rfl
@[simp] theorem State.setInterrupt_vote : (s.setInterrupt x).vote = s.vote := rfl
@[simp] theorem State.setInterrupt_health : (s.setInterrupt x).health = s.health := rfl
@[simp] theorem State.setInterrupt_healthConfig : (s.setInterrupt x).healthConfig = s.healthConfig := rfl
@[simp] theorem State.setInterrupt_tracker : (s.setInterrupt x).tracker = s.tracker := rfl
@[simp] theorem State.setInterrupt_limits : (s.setInterrupt x).limits = s.limits := rfl
@[simp] theorem State.setInterrupt_queue : (s.setInterrupt x).queue = s.queue := rfl
@[simp] theorem State.setInterrupt_schedule : (s.setInterrupt x).schedule = s.schedule := rfl
@[simp] theorem State.setInterrupt_armed : (s.setInterrupt x).armed = s.armed := rfl
@[simp] theorem State.setInterrupt_output : (s.setInterrupt x).output = s.output := rfl
@[simp] theorem State.setInterrupt_command : (s.setInterrupt x).command = s.command := rfl
@[simp] theorem State.setInterrupt_interrupt : (s.setInterrupt x).interrupt = x := rfl
@[simp] theorem State.setInterrupt_stats : (s.setInterrupt x).stats = s.stats := rfl
@[simp] theorem State.setInterrupt_window : (s.setInterrupt x).window = s.window := rfl
@[simp] theorem State.setInterrupt_pending : (s.setInterrupt x).pending = s.pending := rfl
@[simp] theorem State.setInterrupt_resetAsserted : (s.setInterrupt x).resetAsserted = s.resetAsserted := rfl
end

section
variable (x : Statistics)
@[simp] theorem State.setStats_timebase : (s.setStats x).timebase = s.timebase := rfl
@[simp] theorem State.setStats_lanePins : (s.setStats x).lanePins = s.lanePins := rfl
@[simp] theorem State.setStats_laneConfig : (s.setStats x).laneConfig = s.laneConfig := rfl
@[simp] theorem State.setStats_frontEnds : (s.setStats x).frontEnds = s.frontEnds := rfl
@[simp] theorem State.setStats_table : (s.setStats x).table = s.table := rfl
@[simp] theorem State.setStats_vote : (s.setStats x).vote = s.vote := rfl
@[simp] theorem State.setStats_health : (s.setStats x).health = s.health := rfl
@[simp] theorem State.setStats_healthConfig : (s.setStats x).healthConfig = s.healthConfig := rfl
@[simp] theorem State.setStats_tracker : (s.setStats x).tracker = s.tracker := rfl
@[simp] theorem State.setStats_limits : (s.setStats x).limits = s.limits := rfl
@[simp] theorem State.setStats_queue : (s.setStats x).queue = s.queue := rfl
@[simp] theorem State.setStats_schedule : (s.setStats x).schedule = s.schedule := rfl
@[simp] theorem State.setStats_armed : (s.setStats x).armed = s.armed := rfl
@[simp] theorem State.setStats_output : (s.setStats x).output = s.output := rfl
@[simp] theorem State.setStats_command : (s.setStats x).command = s.command := rfl
@[simp] theorem State.setStats_interrupt : (s.setStats x).interrupt = s.interrupt := rfl
@[simp] theorem State.setStats_stats : (s.setStats x).stats = x := rfl
@[simp] theorem State.setStats_window : (s.setStats x).window = s.window := rfl
@[simp] theorem State.setStats_pending : (s.setStats x).pending = s.pending := rfl
@[simp] theorem State.setStats_resetAsserted : (s.setStats x).resetAsserted = s.resetAsserted := rfl
end

section
variable (x : RegisterWindow)
@[simp] theorem State.setWindow_timebase : (s.setWindow x).timebase = s.timebase := rfl
@[simp] theorem State.setWindow_lanePins : (s.setWindow x).lanePins = s.lanePins := rfl
@[simp] theorem State.setWindow_laneConfig : (s.setWindow x).laneConfig = s.laneConfig := rfl
@[simp] theorem State.setWindow_frontEnds : (s.setWindow x).frontEnds = s.frontEnds := rfl
@[simp] theorem State.setWindow_table : (s.setWindow x).table = s.table := rfl
@[simp] theorem State.setWindow_vote : (s.setWindow x).vote = s.vote := rfl
@[simp] theorem State.setWindow_health : (s.setWindow x).health = s.health := rfl
@[simp] theorem State.setWindow_healthConfig : (s.setWindow x).healthConfig = s.healthConfig := rfl
@[simp] theorem State.setWindow_tracker : (s.setWindow x).tracker = s.tracker := rfl
@[simp] theorem State.setWindow_limits : (s.setWindow x).limits = s.limits := rfl
@[simp] theorem State.setWindow_queue : (s.setWindow x).queue = s.queue := rfl
@[simp] theorem State.setWindow_schedule : (s.setWindow x).schedule = s.schedule := rfl
@[simp] theorem State.setWindow_armed : (s.setWindow x).armed = s.armed := rfl
@[simp] theorem State.setWindow_output : (s.setWindow x).output = s.output := rfl
@[simp] theorem State.setWindow_command : (s.setWindow x).command = s.command := rfl
@[simp] theorem State.setWindow_interrupt : (s.setWindow x).interrupt = s.interrupt := rfl
@[simp] theorem State.setWindow_stats : (s.setWindow x).stats = s.stats := rfl
@[simp] theorem State.setWindow_window : (s.setWindow x).window = x := rfl
@[simp] theorem State.setWindow_pending : (s.setWindow x).pending = s.pending := rfl
@[simp] theorem State.setWindow_resetAsserted : (s.setWindow x).resetAsserted = s.resetAsserted := rfl
end

section
variable (x : List Instr)
@[simp] theorem State.setPending_timebase : (s.setPending x).timebase = s.timebase := rfl
@[simp] theorem State.setPending_lanePins : (s.setPending x).lanePins = s.lanePins := rfl
@[simp] theorem State.setPending_laneConfig : (s.setPending x).laneConfig = s.laneConfig := rfl
@[simp] theorem State.setPending_frontEnds : (s.setPending x).frontEnds = s.frontEnds := rfl
@[simp] theorem State.setPending_table : (s.setPending x).table = s.table := rfl
@[simp] theorem State.setPending_vote : (s.setPending x).vote = s.vote := rfl
@[simp] theorem State.setPending_health : (s.setPending x).health = s.health := rfl
@[simp] theorem State.setPending_healthConfig : (s.setPending x).healthConfig = s.healthConfig := rfl
@[simp] theorem State.setPending_tracker : (s.setPending x).tracker = s.tracker := rfl
@[simp] theorem State.setPending_limits : (s.setPending x).limits = s.limits := rfl
@[simp] theorem State.setPending_queue : (s.setPending x).queue = s.queue := rfl
@[simp] theorem State.setPending_schedule : (s.setPending x).schedule = s.schedule := rfl
@[simp] theorem State.setPending_armed : (s.setPending x).armed = s.armed := rfl
@[simp] theorem State.setPending_output : (s.setPending x).output = s.output := rfl
@[simp] theorem State.setPending_command : (s.setPending x).command = s.command := rfl
@[simp] theorem State.setPending_interrupt : (s.setPending x).interrupt = s.interrupt := rfl
@[simp] theorem State.setPending_stats : (s.setPending x).stats = s.stats := rfl
@[simp] theorem State.setPending_window : (s.setPending x).window = s.window := rfl
@[simp] theorem State.setPending_pending : (s.setPending x).pending = x := rfl
@[simp] theorem State.setPending_resetAsserted : (s.setPending x).resetAsserted = s.resetAsserted := rfl
end

end Sys2Proof.Machine
end

