-- ==== Sys2Proof/Laws/Frame.lean ====
section
/-! SUPPORT. What each shared operation leaves unchanged: one lemma per operation and block. -/

namespace Sys2Proof.Machine

variable (s : State)

/-! An answer is the state given, or the state unchanged while RESET is asserted (R168). -/

/-- With RESET released, what the meaning gives is taken. -/
theorem State.accept_released {s : State} (h : s.resetAsserted = false) (t : State) : s.accept t = .next t := by
  unfold State.accept; rw [h]; rfl

/-- While RESET is asserted, nothing is taken. -/
theorem State.accept_held {s : State} (h : s.resetAsserted = true) (t : State) : s.accept t = .next s := by
  unfold State.accept; rw [h]; rfl

/-- What holds of the state and of what the meaning gives holds of the answer. -/
theorem State.accept_next {s t u : State} {p : State → Prop} (h : s.accept t = .next u) (hs : p s) (ht : p t) : p u := by
  unfold State.accept at h
  cases h
  split
  · exact hs
  · exact ht

/-! A setting event changes the flags. -/

@[simp] theorem State.setFlags_timebase (f : Flags → Flags) : (s.setFlags f).timebase = s.timebase := rfl
@[simp] theorem State.setFlags_lanePins (f : Flags → Flags) : (s.setFlags f).lanePins = s.lanePins := rfl
@[simp] theorem State.setFlags_laneConfig (f : Flags → Flags) : (s.setFlags f).laneConfig = s.laneConfig := rfl
@[simp] theorem State.setFlags_frontEnds (f : Flags → Flags) : (s.setFlags f).frontEnds = s.frontEnds := rfl
@[simp] theorem State.setFlags_table (f : Flags → Flags) : (s.setFlags f).table = s.table := rfl
@[simp] theorem State.setFlags_vote (f : Flags → Flags) : (s.setFlags f).vote = s.vote := rfl
@[simp] theorem State.setFlags_health (f : Flags → Flags) : (s.setFlags f).health = s.health := rfl
@[simp] theorem State.setFlags_healthConfig (f : Flags → Flags) : (s.setFlags f).healthConfig = s.healthConfig := rfl
@[simp] theorem State.setFlags_tracker (f : Flags → Flags) : (s.setFlags f).tracker = s.tracker := rfl
@[simp] theorem State.setFlags_limits (f : Flags → Flags) : (s.setFlags f).limits = s.limits := rfl
@[simp] theorem State.setFlags_queue (f : Flags → Flags) : (s.setFlags f).queue = s.queue := rfl
@[simp] theorem State.setFlags_schedule (f : Flags → Flags) : (s.setFlags f).schedule = s.schedule := rfl
@[simp] theorem State.setFlags_armed (f : Flags → Flags) : (s.setFlags f).armed = s.armed := rfl
@[simp] theorem State.setFlags_output (f : Flags → Flags) : (s.setFlags f).output = s.output := rfl
@[simp] theorem State.setFlags_command (f : Flags → Flags) : (s.setFlags f).command = s.command := rfl
@[simp] theorem State.setFlags_stats (f : Flags → Flags) : (s.setFlags f).stats = s.stats := rfl
@[simp] theorem State.setFlags_window (f : Flags → Flags) : (s.setFlags f).window = s.window := rfl
@[simp] theorem State.setFlags_pending (f : Flags → Flags) : (s.setFlags f).pending = s.pending := rfl
@[simp] theorem State.setFlags_resetAsserted (f : Flags → Flags) : (s.setFlags f).resetAsserted = s.resetAsserted := rfl

/-! An offer changes the queue and the OVERRUN flag. -/

@[simp] theorem State.offer_timebase (r : RecordBody) : (s.offer r).timebase = s.timebase := by unfold State.offer; split <;> rfl
@[simp] theorem State.offer_lanePins (r : RecordBody) : (s.offer r).lanePins = s.lanePins := by unfold State.offer; split <;> rfl
@[simp] theorem State.offer_laneConfig (r : RecordBody) : (s.offer r).laneConfig = s.laneConfig := by unfold State.offer; split <;> rfl
@[simp] theorem State.offer_frontEnds (r : RecordBody) : (s.offer r).frontEnds = s.frontEnds := by unfold State.offer; split <;> rfl
@[simp] theorem State.offer_table (r : RecordBody) : (s.offer r).table = s.table := by unfold State.offer; split <;> rfl
@[simp] theorem State.offer_vote (r : RecordBody) : (s.offer r).vote = s.vote := by unfold State.offer; split <;> rfl
@[simp] theorem State.offer_health (r : RecordBody) : (s.offer r).health = s.health := by unfold State.offer; split <;> rfl
@[simp] theorem State.offer_healthConfig (r : RecordBody) : (s.offer r).healthConfig = s.healthConfig := by unfold State.offer; split <;> rfl
@[simp] theorem State.offer_tracker (r : RecordBody) : (s.offer r).tracker = s.tracker := by unfold State.offer; split <;> rfl
@[simp] theorem State.offer_limits (r : RecordBody) : (s.offer r).limits = s.limits := by unfold State.offer; split <;> rfl
@[simp] theorem State.offer_schedule (r : RecordBody) : (s.offer r).schedule = s.schedule := by unfold State.offer; split <;> rfl
@[simp] theorem State.offer_armed (r : RecordBody) : (s.offer r).armed = s.armed := by unfold State.offer; split <;> rfl
@[simp] theorem State.offer_output (r : RecordBody) : (s.offer r).output = s.output := by unfold State.offer; split <;> rfl
@[simp] theorem State.offer_command (r : RecordBody) : (s.offer r).command = s.command := by unfold State.offer; split <;> rfl
@[simp] theorem State.offer_stats (r : RecordBody) : (s.offer r).stats = s.stats := by unfold State.offer; split <;> rfl
@[simp] theorem State.offer_window (r : RecordBody) : (s.offer r).window = s.window := by unfold State.offer; split <;> rfl
@[simp] theorem State.offer_pending (r : RecordBody) : (s.offer r).pending = s.pending := by unfold State.offer; split <;> rfl
@[simp] theorem State.offer_resetAsserted (r : RecordBody) : (s.offer r).resetAsserted = s.resetAsserted := by unfold State.offer; split <;> rfl

/-! Bus status changes with the ACCESS flag. -/

@[simp] theorem State.setBusStatus_timebase (f : BusStatus → BusStatus) : (s.setBusStatus f).timebase = s.timebase := rfl
@[simp] theorem State.setBusStatus_lanePins (f : BusStatus → BusStatus) : (s.setBusStatus f).lanePins = s.lanePins := rfl
@[simp] theorem State.setBusStatus_laneConfig (f : BusStatus → BusStatus) : (s.setBusStatus f).laneConfig = s.laneConfig := rfl
@[simp] theorem State.setBusStatus_frontEnds (f : BusStatus → BusStatus) : (s.setBusStatus f).frontEnds = s.frontEnds := rfl
@[simp] theorem State.setBusStatus_table (f : BusStatus → BusStatus) : (s.setBusStatus f).table = s.table := rfl
@[simp] theorem State.setBusStatus_vote (f : BusStatus → BusStatus) : (s.setBusStatus f).vote = s.vote := rfl
@[simp] theorem State.setBusStatus_health (f : BusStatus → BusStatus) : (s.setBusStatus f).health = s.health := rfl
@[simp] theorem State.setBusStatus_healthConfig (f : BusStatus → BusStatus) : (s.setBusStatus f).healthConfig = s.healthConfig := rfl
@[simp] theorem State.setBusStatus_tracker (f : BusStatus → BusStatus) : (s.setBusStatus f).tracker = s.tracker := rfl
@[simp] theorem State.setBusStatus_limits (f : BusStatus → BusStatus) : (s.setBusStatus f).limits = s.limits := rfl
@[simp] theorem State.setBusStatus_queue (f : BusStatus → BusStatus) : (s.setBusStatus f).queue = s.queue := rfl
@[simp] theorem State.setBusStatus_schedule (f : BusStatus → BusStatus) : (s.setBusStatus f).schedule = s.schedule := rfl
@[simp] theorem State.setBusStatus_armed (f : BusStatus → BusStatus) : (s.setBusStatus f).armed = s.armed := rfl
@[simp] theorem State.setBusStatus_output (f : BusStatus → BusStatus) : (s.setBusStatus f).output = s.output := rfl
@[simp] theorem State.setBusStatus_command (f : BusStatus → BusStatus) : (s.setBusStatus f).command = s.command := rfl
@[simp] theorem State.setBusStatus_stats (f : BusStatus → BusStatus) : (s.setBusStatus f).stats = s.stats := rfl
@[simp] theorem State.setBusStatus_pending (f : BusStatus → BusStatus) : (s.setBusStatus f).pending = s.pending := rfl
@[simp] theorem State.setBusStatus_resetAsserted (f : BusStatus → BusStatus) : (s.setBusStatus f).resetAsserted = s.resetAsserted := rfl

/-! A count changes the statistics. -/

@[simp] theorem State.count_timebase (f : Counters → Counters) : (s.count f).timebase = s.timebase := rfl
@[simp] theorem State.count_lanePins (f : Counters → Counters) : (s.count f).lanePins = s.lanePins := rfl
@[simp] theorem State.count_laneConfig (f : Counters → Counters) : (s.count f).laneConfig = s.laneConfig := rfl
@[simp] theorem State.count_frontEnds (f : Counters → Counters) : (s.count f).frontEnds = s.frontEnds := rfl
@[simp] theorem State.count_table (f : Counters → Counters) : (s.count f).table = s.table := rfl
@[simp] theorem State.count_vote (f : Counters → Counters) : (s.count f).vote = s.vote := rfl
@[simp] theorem State.count_health (f : Counters → Counters) : (s.count f).health = s.health := rfl
@[simp] theorem State.count_healthConfig (f : Counters → Counters) : (s.count f).healthConfig = s.healthConfig := rfl
@[simp] theorem State.count_tracker (f : Counters → Counters) : (s.count f).tracker = s.tracker := rfl
@[simp] theorem State.count_limits (f : Counters → Counters) : (s.count f).limits = s.limits := rfl
@[simp] theorem State.count_queue (f : Counters → Counters) : (s.count f).queue = s.queue := rfl
@[simp] theorem State.count_schedule (f : Counters → Counters) : (s.count f).schedule = s.schedule := rfl
@[simp] theorem State.count_armed (f : Counters → Counters) : (s.count f).armed = s.armed := rfl
@[simp] theorem State.count_output (f : Counters → Counters) : (s.count f).output = s.output := rfl
@[simp] theorem State.count_command (f : Counters → Counters) : (s.count f).command = s.command := rfl
@[simp] theorem State.count_interrupt (f : Counters → Counters) : (s.count f).interrupt = s.interrupt := rfl
@[simp] theorem State.count_window (f : Counters → Counters) : (s.count f).window = s.window := rfl
@[simp] theorem State.count_pending (f : Counters → Counters) : (s.count f).pending = s.pending := rfl
@[simp] theorem State.count_resetAsserted (f : Counters → Counters) : (s.count f).resetAsserted = s.resetAsserted := rfl

/-! An execution changes the output block. -/

@[simp] theorem State.drive_timebase (line : Line) (a : Action) (p : Phase) : (s.drive line a p).timebase = s.timebase := rfl
@[simp] theorem State.drive_lanePins (line : Line) (a : Action) (p : Phase) : (s.drive line a p).lanePins = s.lanePins := rfl
@[simp] theorem State.drive_laneConfig (line : Line) (a : Action) (p : Phase) : (s.drive line a p).laneConfig = s.laneConfig := rfl
@[simp] theorem State.drive_frontEnds (line : Line) (a : Action) (p : Phase) : (s.drive line a p).frontEnds = s.frontEnds := rfl
@[simp] theorem State.drive_table (line : Line) (a : Action) (p : Phase) : (s.drive line a p).table = s.table := rfl
@[simp] theorem State.drive_vote (line : Line) (a : Action) (p : Phase) : (s.drive line a p).vote = s.vote := rfl
@[simp] theorem State.drive_health (line : Line) (a : Action) (p : Phase) : (s.drive line a p).health = s.health := rfl
@[simp] theorem State.drive_healthConfig (line : Line) (a : Action) (p : Phase) : (s.drive line a p).healthConfig = s.healthConfig := rfl
@[simp] theorem State.drive_tracker (line : Line) (a : Action) (p : Phase) : (s.drive line a p).tracker = s.tracker := rfl
@[simp] theorem State.drive_limits (line : Line) (a : Action) (p : Phase) : (s.drive line a p).limits = s.limits := rfl
@[simp] theorem State.drive_queue (line : Line) (a : Action) (p : Phase) : (s.drive line a p).queue = s.queue := rfl
@[simp] theorem State.drive_schedule (line : Line) (a : Action) (p : Phase) : (s.drive line a p).schedule = s.schedule := rfl
@[simp] theorem State.drive_armed (line : Line) (a : Action) (p : Phase) : (s.drive line a p).armed = s.armed := rfl
@[simp] theorem State.drive_command (line : Line) (a : Action) (p : Phase) : (s.drive line a p).command = s.command := rfl
@[simp] theorem State.drive_interrupt (line : Line) (a : Action) (p : Phase) : (s.drive line a p).interrupt = s.interrupt := rfl
@[simp] theorem State.drive_stats (line : Line) (a : Action) (p : Phase) : (s.drive line a p).stats = s.stats := rfl
@[simp] theorem State.drive_window (line : Line) (a : Action) (p : Phase) : (s.drive line a p).window = s.window := rfl
@[simp] theorem State.drive_pending (line : Line) (a : Action) (p : Phase) : (s.drive line a p).pending = s.pending := rfl
@[simp] theorem State.drive_resetAsserted (line : Line) (a : Action) (p : Phase) : (s.drive line a p).resetAsserted = s.resetAsserted := rfl

/-! A missed action changes the queue, the flags and the statistics. -/

@[simp] theorem State.miss_timebase (i : Nat) (n : Time) (r : MissedReason) : (s.miss i n r).timebase = s.timebase := by simp [State.miss, State.flagMissed]
@[simp] theorem State.miss_lanePins (i : Nat) (n : Time) (r : MissedReason) : (s.miss i n r).lanePins = s.lanePins := by simp [State.miss, State.flagMissed]
@[simp] theorem State.miss_laneConfig (i : Nat) (n : Time) (r : MissedReason) : (s.miss i n r).laneConfig = s.laneConfig := by simp [State.miss, State.flagMissed]
@[simp] theorem State.miss_frontEnds (i : Nat) (n : Time) (r : MissedReason) : (s.miss i n r).frontEnds = s.frontEnds := by simp [State.miss, State.flagMissed]
@[simp] theorem State.miss_table (i : Nat) (n : Time) (r : MissedReason) : (s.miss i n r).table = s.table := by simp [State.miss, State.flagMissed]
@[simp] theorem State.miss_vote (i : Nat) (n : Time) (r : MissedReason) : (s.miss i n r).vote = s.vote := by simp [State.miss, State.flagMissed]
@[simp] theorem State.miss_health (i : Nat) (n : Time) (r : MissedReason) : (s.miss i n r).health = s.health := by simp [State.miss, State.flagMissed]
@[simp] theorem State.miss_healthConfig (i : Nat) (n : Time) (r : MissedReason) : (s.miss i n r).healthConfig = s.healthConfig := by simp [State.miss, State.flagMissed]
@[simp] theorem State.miss_tracker (i : Nat) (n : Time) (r : MissedReason) : (s.miss i n r).tracker = s.tracker := by simp [State.miss, State.flagMissed]
@[simp] theorem State.miss_limits (i : Nat) (n : Time) (r : MissedReason) : (s.miss i n r).limits = s.limits := by simp [State.miss, State.flagMissed]
@[simp] theorem State.miss_schedule (i : Nat) (n : Time) (r : MissedReason) : (s.miss i n r).schedule = s.schedule := by simp [State.miss, State.flagMissed]
@[simp] theorem State.miss_armed (i : Nat) (n : Time) (r : MissedReason) : (s.miss i n r).armed = s.armed := by simp [State.miss, State.flagMissed]
@[simp] theorem State.miss_output (i : Nat) (n : Time) (r : MissedReason) : (s.miss i n r).output = s.output := by simp [State.miss, State.flagMissed]
@[simp] theorem State.miss_command (i : Nat) (n : Time) (r : MissedReason) : (s.miss i n r).command = s.command := by simp [State.miss, State.flagMissed]
@[simp] theorem State.miss_window (i : Nat) (n : Time) (r : MissedReason) : (s.miss i n r).window = s.window := by simp [State.miss, State.flagMissed]
@[simp] theorem State.miss_pending (i : Nat) (n : Time) (r : MissedReason) : (s.miss i n r).pending = s.pending := by simp [State.miss, State.flagMissed]
@[simp] theorem State.miss_resetAsserted (i : Nat) (n : Time) (r : MissedReason) : (s.miss i n r).resetAsserted = s.resetAsserted := by simp [State.miss, State.flagMissed]

/-! A commit taken at an anchor changes the banks, the queue and the flags. -/

@[simp] theorem State.takeCommit_timebase (n : Time) : (s.takeCommit n).timebase = s.timebase := by unfold State.takeCommit; split <;> simp [State.flagCommit]
@[simp] theorem State.takeCommit_lanePins (n : Time) : (s.takeCommit n).lanePins = s.lanePins := by unfold State.takeCommit; split <;> simp [State.flagCommit]
@[simp] theorem State.takeCommit_laneConfig (n : Time) : (s.takeCommit n).laneConfig = s.laneConfig := by unfold State.takeCommit; split <;> simp [State.flagCommit]
@[simp] theorem State.takeCommit_frontEnds (n : Time) : (s.takeCommit n).frontEnds = s.frontEnds := by unfold State.takeCommit; split <;> simp [State.flagCommit]
@[simp] theorem State.takeCommit_table (n : Time) : (s.takeCommit n).table = s.table := by unfold State.takeCommit; split <;> simp [State.flagCommit]
@[simp] theorem State.takeCommit_vote (n : Time) : (s.takeCommit n).vote = s.vote := by unfold State.takeCommit; split <;> simp [State.flagCommit]
@[simp] theorem State.takeCommit_health (n : Time) : (s.takeCommit n).health = s.health := by unfold State.takeCommit; split <;> simp [State.flagCommit]
@[simp] theorem State.takeCommit_healthConfig (n : Time) : (s.takeCommit n).healthConfig = s.healthConfig := by unfold State.takeCommit; split <;> simp [State.flagCommit]
@[simp] theorem State.takeCommit_tracker (n : Time) : (s.takeCommit n).tracker = s.tracker := by unfold State.takeCommit; split <;> simp [State.flagCommit]
@[simp] theorem State.takeCommit_limits (n : Time) : (s.takeCommit n).limits = s.limits := by unfold State.takeCommit; split <;> simp [State.flagCommit]
@[simp] theorem State.takeCommit_armed (n : Time) : (s.takeCommit n).armed = s.armed := by unfold State.takeCommit; split <;> simp [State.flagCommit]
@[simp] theorem State.takeCommit_output (n : Time) : (s.takeCommit n).output = s.output := by unfold State.takeCommit; split <;> simp [State.flagCommit]
@[simp] theorem State.takeCommit_command (n : Time) : (s.takeCommit n).command = s.command := by unfold State.takeCommit; split <;> simp [State.flagCommit]
@[simp] theorem State.takeCommit_stats (n : Time) : (s.takeCommit n).stats = s.stats := by unfold State.takeCommit; split <;> simp [State.flagCommit]
@[simp] theorem State.takeCommit_window (n : Time) : (s.takeCommit n).window = s.window := by unfold State.takeCommit; split <;> simp [State.flagCommit]
@[simp] theorem State.takeCommit_pending (n : Time) : (s.takeCommit n).pending = s.pending := by unfold State.takeCommit; split <;> simp [State.flagCommit]
@[simp] theorem State.takeCommit_resetAsserted (n : Time) : (s.takeCommit n).resetAsserted = s.resetAsserted := by unfold State.takeCommit; split <;> simp [State.flagCommit]

/-! A late entry changes the queue, the flags, the statistics, the armed list and the latches. -/

@[simp] theorem State.armLate_timebase (x : ArmedAction) : (s.armLate x).timebase = s.timebase := by
  unfold State.armLate State.executeLate State.countLate State.arm; split <;> (try split) <;> (try split) <;> (try split) <;> simp
@[simp] theorem State.armLate_lanePins (x : ArmedAction) : (s.armLate x).lanePins = s.lanePins := by
  unfold State.armLate State.executeLate State.countLate State.arm; split <;> (try split) <;> (try split) <;> (try split) <;> simp
@[simp] theorem State.armLate_laneConfig (x : ArmedAction) : (s.armLate x).laneConfig = s.laneConfig := by
  unfold State.armLate State.executeLate State.countLate State.arm; split <;> (try split) <;> (try split) <;> (try split) <;> simp
@[simp] theorem State.armLate_frontEnds (x : ArmedAction) : (s.armLate x).frontEnds = s.frontEnds := by
  unfold State.armLate State.executeLate State.countLate State.arm; split <;> (try split) <;> (try split) <;> (try split) <;> simp
@[simp] theorem State.armLate_table (x : ArmedAction) : (s.armLate x).table = s.table := by
  unfold State.armLate State.executeLate State.countLate State.arm; split <;> (try split) <;> (try split) <;> (try split) <;> simp
@[simp] theorem State.armLate_vote (x : ArmedAction) : (s.armLate x).vote = s.vote := by
  unfold State.armLate State.executeLate State.countLate State.arm; split <;> (try split) <;> (try split) <;> (try split) <;> simp
@[simp] theorem State.armLate_health (x : ArmedAction) : (s.armLate x).health = s.health := by
  unfold State.armLate State.executeLate State.countLate State.arm; split <;> (try split) <;> (try split) <;> (try split) <;> simp
@[simp] theorem State.armLate_healthConfig (x : ArmedAction) : (s.armLate x).healthConfig = s.healthConfig := by
  unfold State.armLate State.executeLate State.countLate State.arm; split <;> (try split) <;> (try split) <;> (try split) <;> simp
@[simp] theorem State.armLate_tracker (x : ArmedAction) : (s.armLate x).tracker = s.tracker := by
  unfold State.armLate State.executeLate State.countLate State.arm; split <;> (try split) <;> (try split) <;> (try split) <;> simp
@[simp] theorem State.armLate_limits (x : ArmedAction) : (s.armLate x).limits = s.limits := by
  unfold State.armLate State.executeLate State.countLate State.arm; split <;> (try split) <;> (try split) <;> (try split) <;> simp
@[simp] theorem State.armLate_schedule (x : ArmedAction) : (s.armLate x).schedule = s.schedule := by
  unfold State.armLate State.executeLate State.countLate State.arm; split <;> (try split) <;> (try split) <;> (try split) <;> simp
@[simp] theorem State.armLate_command (x : ArmedAction) : (s.armLate x).command = s.command := by
  unfold State.armLate State.executeLate State.countLate State.arm; split <;> (try split) <;> (try split) <;> (try split) <;> simp
@[simp] theorem State.armLate_window (x : ArmedAction) : (s.armLate x).window = s.window := by
  unfold State.armLate State.executeLate State.countLate State.arm; split <;> (try split) <;> (try split) <;> (try split) <;> simp
@[simp] theorem State.armLate_pending (x : ArmedAction) : (s.armLate x).pending = s.pending := by
  unfold State.armLate State.executeLate State.countLate State.arm; split <;> (try split) <;> (try split) <;> (try split) <;> simp
@[simp] theorem State.armLate_resetAsserted (x : ArmedAction) : (s.armLate x).resetAsserted = s.resetAsserted := by
  unfold State.armLate State.executeLate State.countLate State.arm; split <;> (try split) <;> (try split) <;> (try split) <;> simp

/-! An entry due later changes the armed list, or is missed. -/

@[simp] theorem State.armLater_timebase (x : ArmedAction) : (s.armLater x).timebase = s.timebase := by
  unfold State.armLater State.arm; split <;> simp
@[simp] theorem State.armLater_lanePins (x : ArmedAction) : (s.armLater x).lanePins = s.lanePins := by
  unfold State.armLater State.arm; split <;> simp
@[simp] theorem State.armLater_laneConfig (x : ArmedAction) : (s.armLater x).laneConfig = s.laneConfig := by
  unfold State.armLater State.arm; split <;> simp
@[simp] theorem State.armLater_frontEnds (x : ArmedAction) : (s.armLater x).frontEnds = s.frontEnds := by
  unfold State.armLater State.arm; split <;> simp
@[simp] theorem State.armLater_table (x : ArmedAction) : (s.armLater x).table = s.table := by
  unfold State.armLater State.arm; split <;> simp
@[simp] theorem State.armLater_vote (x : ArmedAction) : (s.armLater x).vote = s.vote := by
  unfold State.armLater State.arm; split <;> simp
@[simp] theorem State.armLater_health (x : ArmedAction) : (s.armLater x).health = s.health := by
  unfold State.armLater State.arm; split <;> simp
@[simp] theorem State.armLater_healthConfig (x : ArmedAction) : (s.armLater x).healthConfig = s.healthConfig := by
  unfold State.armLater State.arm; split <;> simp
@[simp] theorem State.armLater_tracker (x : ArmedAction) : (s.armLater x).tracker = s.tracker := by
  unfold State.armLater State.arm; split <;> simp
@[simp] theorem State.armLater_limits (x : ArmedAction) : (s.armLater x).limits = s.limits := by
  unfold State.armLater State.arm; split <;> simp
@[simp] theorem State.armLater_schedule (x : ArmedAction) : (s.armLater x).schedule = s.schedule := by
  unfold State.armLater State.arm; split <;> simp
@[simp] theorem State.armLater_output (x : ArmedAction) : (s.armLater x).output = s.output := by
  unfold State.armLater State.arm; split <;> simp
@[simp] theorem State.armLater_command (x : ArmedAction) : (s.armLater x).command = s.command := by
  unfold State.armLater State.arm; split <;> simp
@[simp] theorem State.armLater_window (x : ArmedAction) : (s.armLater x).window = s.window := by
  unfold State.armLater State.arm; split <;> simp
@[simp] theorem State.armLater_pending (x : ArmedAction) : (s.armLater x).pending = s.pending := by
  unfold State.armLater State.arm; split <;> simp
@[simp] theorem State.armLater_resetAsserted (x : ArmedAction) : (s.armLater x).resetAsserted = s.resetAsserted := by
  unfold State.armLater State.arm; split <;> simp

/-! One entry of the active bank. -/

@[simp] theorem State.armEntry_timebase (n : Notice) (i : Nat) (e : Entry) : (s.armEntry n i e).timebase = s.timebase := by
  unfold State.armEntry; split
  · split
    · simp
    · dsimp only; split <;> simp
  · rfl
@[simp] theorem State.armEntry_lanePins (n : Notice) (i : Nat) (e : Entry) : (s.armEntry n i e).lanePins = s.lanePins := by
  unfold State.armEntry; split
  · split
    · simp
    · dsimp only; split <;> simp
  · rfl
@[simp] theorem State.armEntry_laneConfig (n : Notice) (i : Nat) (e : Entry) : (s.armEntry n i e).laneConfig = s.laneConfig := by
  unfold State.armEntry; split
  · split
    · simp
    · dsimp only; split <;> simp
  · rfl
@[simp] theorem State.armEntry_frontEnds (n : Notice) (i : Nat) (e : Entry) : (s.armEntry n i e).frontEnds = s.frontEnds := by
  unfold State.armEntry; split
  · split
    · simp
    · dsimp only; split <;> simp
  · rfl
@[simp] theorem State.armEntry_table (n : Notice) (i : Nat) (e : Entry) : (s.armEntry n i e).table = s.table := by
  unfold State.armEntry; split
  · split
    · simp
    · dsimp only; split <;> simp
  · rfl
@[simp] theorem State.armEntry_vote (n : Notice) (i : Nat) (e : Entry) : (s.armEntry n i e).vote = s.vote := by
  unfold State.armEntry; split
  · split
    · simp
    · dsimp only; split <;> simp
  · rfl
@[simp] theorem State.armEntry_health (n : Notice) (i : Nat) (e : Entry) : (s.armEntry n i e).health = s.health := by
  unfold State.armEntry; split
  · split
    · simp
    · dsimp only; split <;> simp
  · rfl
@[simp] theorem State.armEntry_healthConfig (n : Notice) (i : Nat) (e : Entry) : (s.armEntry n i e).healthConfig = s.healthConfig := by
  unfold State.armEntry; split
  · split
    · simp
    · dsimp only; split <;> simp
  · rfl
@[simp] theorem State.armEntry_tracker (n : Notice) (i : Nat) (e : Entry) : (s.armEntry n i e).tracker = s.tracker := by
  unfold State.armEntry; split
  · split
    · simp
    · dsimp only; split <;> simp
  · rfl
@[simp] theorem State.armEntry_limits (n : Notice) (i : Nat) (e : Entry) : (s.armEntry n i e).limits = s.limits := by
  unfold State.armEntry; split
  · split
    · simp
    · dsimp only; split <;> simp
  · rfl
@[simp] theorem State.armEntry_schedule (n : Notice) (i : Nat) (e : Entry) : (s.armEntry n i e).schedule = s.schedule := by
  unfold State.armEntry; split
  · split
    · simp
    · dsimp only; split <;> simp
  · rfl
@[simp] theorem State.armEntry_command (n : Notice) (i : Nat) (e : Entry) : (s.armEntry n i e).command = s.command := by
  unfold State.armEntry; split
  · split
    · simp
    · dsimp only; split <;> simp
  · rfl
@[simp] theorem State.armEntry_window (n : Notice) (i : Nat) (e : Entry) : (s.armEntry n i e).window = s.window := by
  unfold State.armEntry; split
  · split
    · simp
    · dsimp only; split <;> simp
  · rfl
@[simp] theorem State.armEntry_pending (n : Notice) (i : Nat) (e : Entry) : (s.armEntry n i e).pending = s.pending := by
  unfold State.armEntry; split
  · split
    · simp
    · dsimp only; split <;> simp
  · rfl
@[simp] theorem State.armEntry_resetAsserted (n : Notice) (i : Nat) (e : Entry) : (s.armEntry n i e).resetAsserted = s.resetAsserted := by
  unfold State.armEntry; split
  · split
    · simp
    · dsimp only; split <;> simp
  · rfl

/-! The entries of the active bank. -/

@[simp] theorem State.armEntries_timebase (n : Notice) (i : Nat) (es : List Entry) : (s.armEntries n i es).timebase = s.timebase := by
  induction es generalizing s i with
  | nil => rfl
  | cons e rest ih => simp [State.armEntries, ih]
@[simp] theorem State.armEntries_lanePins (n : Notice) (i : Nat) (es : List Entry) : (s.armEntries n i es).lanePins = s.lanePins := by
  induction es generalizing s i with
  | nil => rfl
  | cons e rest ih => simp [State.armEntries, ih]
@[simp] theorem State.armEntries_laneConfig (n : Notice) (i : Nat) (es : List Entry) : (s.armEntries n i es).laneConfig = s.laneConfig := by
  induction es generalizing s i with
  | nil => rfl
  | cons e rest ih => simp [State.armEntries, ih]
@[simp] theorem State.armEntries_frontEnds (n : Notice) (i : Nat) (es : List Entry) : (s.armEntries n i es).frontEnds = s.frontEnds := by
  induction es generalizing s i with
  | nil => rfl
  | cons e rest ih => simp [State.armEntries, ih]
@[simp] theorem State.armEntries_table (n : Notice) (i : Nat) (es : List Entry) : (s.armEntries n i es).table = s.table := by
  induction es generalizing s i with
  | nil => rfl
  | cons e rest ih => simp [State.armEntries, ih]
@[simp] theorem State.armEntries_vote (n : Notice) (i : Nat) (es : List Entry) : (s.armEntries n i es).vote = s.vote := by
  induction es generalizing s i with
  | nil => rfl
  | cons e rest ih => simp [State.armEntries, ih]
@[simp] theorem State.armEntries_health (n : Notice) (i : Nat) (es : List Entry) : (s.armEntries n i es).health = s.health := by
  induction es generalizing s i with
  | nil => rfl
  | cons e rest ih => simp [State.armEntries, ih]
@[simp] theorem State.armEntries_healthConfig (n : Notice) (i : Nat) (es : List Entry) : (s.armEntries n i es).healthConfig = s.healthConfig := by
  induction es generalizing s i with
  | nil => rfl
  | cons e rest ih => simp [State.armEntries, ih]
@[simp] theorem State.armEntries_tracker (n : Notice) (i : Nat) (es : List Entry) : (s.armEntries n i es).tracker = s.tracker := by
  induction es generalizing s i with
  | nil => rfl
  | cons e rest ih => simp [State.armEntries, ih]
@[simp] theorem State.armEntries_limits (n : Notice) (i : Nat) (es : List Entry) : (s.armEntries n i es).limits = s.limits := by
  induction es generalizing s i with
  | nil => rfl
  | cons e rest ih => simp [State.armEntries, ih]
@[simp] theorem State.armEntries_schedule (n : Notice) (i : Nat) (es : List Entry) : (s.armEntries n i es).schedule = s.schedule := by
  induction es generalizing s i with
  | nil => rfl
  | cons e rest ih => simp [State.armEntries, ih]
@[simp] theorem State.armEntries_command (n : Notice) (i : Nat) (es : List Entry) : (s.armEntries n i es).command = s.command := by
  induction es generalizing s i with
  | nil => rfl
  | cons e rest ih => simp [State.armEntries, ih]
@[simp] theorem State.armEntries_window (n : Notice) (i : Nat) (es : List Entry) : (s.armEntries n i es).window = s.window := by
  induction es generalizing s i with
  | nil => rfl
  | cons e rest ih => simp [State.armEntries, ih]
@[simp] theorem State.armEntries_pending (n : Notice) (i : Nat) (es : List Entry) : (s.armEntries n i es).pending = s.pending := by
  induction es generalizing s i with
  | nil => rfl
  | cons e rest ih => simp [State.armEntries, ih]
@[simp] theorem State.armEntries_resetAsserted (n : Notice) (i : Nat) (es : List Entry) : (s.armEntries n i es).resetAsserted = s.resetAsserted := by
  induction es generalizing s i with
  | nil => rfl
  | cons e rest ih => simp [State.armEntries, ih]

/-! An anchor notice. -/

@[simp] theorem State.takeNotice_timebase (n : Notice) : (s.takeNotice n).timebase = s.timebase := by
  simp [State.takeNotice, State.workNotice]
@[simp] theorem State.takeNotice_lanePins (n : Notice) : (s.takeNotice n).lanePins = s.lanePins := by
  simp [State.takeNotice, State.workNotice]
@[simp] theorem State.takeNotice_laneConfig (n : Notice) : (s.takeNotice n).laneConfig = s.laneConfig := by
  simp [State.takeNotice, State.workNotice]
@[simp] theorem State.takeNotice_frontEnds (n : Notice) : (s.takeNotice n).frontEnds = s.frontEnds := by
  simp [State.takeNotice, State.workNotice]
@[simp] theorem State.takeNotice_table (n : Notice) : (s.takeNotice n).table = s.table := by
  simp [State.takeNotice, State.workNotice]
@[simp] theorem State.takeNotice_vote (n : Notice) : (s.takeNotice n).vote = s.vote := by
  simp [State.takeNotice, State.workNotice]
@[simp] theorem State.takeNotice_health (n : Notice) : (s.takeNotice n).health = s.health := by
  simp [State.takeNotice, State.workNotice]
@[simp] theorem State.takeNotice_healthConfig (n : Notice) : (s.takeNotice n).healthConfig = s.healthConfig := by
  simp [State.takeNotice, State.workNotice]
@[simp] theorem State.takeNotice_tracker (n : Notice) : (s.takeNotice n).tracker = s.tracker := by
  simp [State.takeNotice, State.workNotice]
@[simp] theorem State.takeNotice_limits (n : Notice) : (s.takeNotice n).limits = s.limits := by
  simp [State.takeNotice, State.workNotice]
@[simp] theorem State.takeNotice_command (n : Notice) : (s.takeNotice n).command = s.command := by
  simp [State.takeNotice, State.workNotice]
@[simp] theorem State.takeNotice_window (n : Notice) : (s.takeNotice n).window = s.window := by
  simp [State.takeNotice, State.workNotice]
@[simp] theorem State.takeNotice_pending (n : Notice) : (s.takeNotice n).pending = s.pending := by
  simp [State.takeNotice, State.workNotice]
@[simp] theorem State.takeNotice_resetAsserted (n : Notice) : (s.takeNotice n).resetAsserted = s.resetAsserted := by
  simp [State.takeNotice, State.workNotice]

/-! An anchor. -/

@[simp] theorem State.trackAnchor_timebase (r : VoteResult) (t : Time) : (s.trackAnchor r t).timebase = s.timebase := by
  unfold State.trackAnchor State.flagLimit; dsimp only; split <;> simp
@[simp] theorem State.trackAnchor_lanePins (r : VoteResult) (t : Time) : (s.trackAnchor r t).lanePins = s.lanePins := by
  unfold State.trackAnchor State.flagLimit; dsimp only; split <;> simp
@[simp] theorem State.trackAnchor_laneConfig (r : VoteResult) (t : Time) : (s.trackAnchor r t).laneConfig = s.laneConfig := by
  unfold State.trackAnchor State.flagLimit; dsimp only; split <;> simp
@[simp] theorem State.trackAnchor_frontEnds (r : VoteResult) (t : Time) : (s.trackAnchor r t).frontEnds = s.frontEnds := by
  unfold State.trackAnchor State.flagLimit; dsimp only; split <;> simp
@[simp] theorem State.trackAnchor_table (r : VoteResult) (t : Time) : (s.trackAnchor r t).table = s.table := by
  unfold State.trackAnchor State.flagLimit; dsimp only; split <;> simp
@[simp] theorem State.trackAnchor_vote (r : VoteResult) (t : Time) : (s.trackAnchor r t).vote = s.vote := by
  unfold State.trackAnchor State.flagLimit; dsimp only; split <;> simp
@[simp] theorem State.trackAnchor_health (r : VoteResult) (t : Time) : (s.trackAnchor r t).health = s.health := by
  unfold State.trackAnchor State.flagLimit; dsimp only; split <;> simp
@[simp] theorem State.trackAnchor_healthConfig (r : VoteResult) (t : Time) : (s.trackAnchor r t).healthConfig = s.healthConfig := by
  unfold State.trackAnchor State.flagLimit; dsimp only; split <;> simp
@[simp] theorem State.trackAnchor_limits (r : VoteResult) (t : Time) : (s.trackAnchor r t).limits = s.limits := by
  unfold State.trackAnchor State.flagLimit; dsimp only; split <;> simp
@[simp] theorem State.trackAnchor_command (r : VoteResult) (t : Time) : (s.trackAnchor r t).command = s.command := by
  unfold State.trackAnchor State.flagLimit; dsimp only; split <;> simp
@[simp] theorem State.trackAnchor_window (r : VoteResult) (t : Time) : (s.trackAnchor r t).window = s.window := by
  unfold State.trackAnchor State.flagLimit; dsimp only; split <;> simp
@[simp] theorem State.trackAnchor_pending (r : VoteResult) (t : Time) : (s.trackAnchor r t).pending = s.pending := by
  unfold State.trackAnchor State.flagLimit; dsimp only; split <;> simp
@[simp] theorem State.trackAnchor_resetAsserted (r : VoteResult) (t : Time) : (s.trackAnchor r t).resetAsserted = s.resetAsserted := by
  unfold State.trackAnchor State.flagLimit; dsimp only; split <;> simp

/-! The tracker's work for one group. -/

@[simp] theorem State.track_timebase (r : VoteResult) : (s.track r).timebase = s.timebase := by
  unfold State.track State.trackOutOfOrder; split <;> (try split) <;> simp
@[simp] theorem State.track_lanePins (r : VoteResult) : (s.track r).lanePins = s.lanePins := by
  unfold State.track State.trackOutOfOrder; split <;> (try split) <;> simp
@[simp] theorem State.track_laneConfig (r : VoteResult) : (s.track r).laneConfig = s.laneConfig := by
  unfold State.track State.trackOutOfOrder; split <;> (try split) <;> simp
@[simp] theorem State.track_frontEnds (r : VoteResult) : (s.track r).frontEnds = s.frontEnds := by
  unfold State.track State.trackOutOfOrder; split <;> (try split) <;> simp
@[simp] theorem State.track_table (r : VoteResult) : (s.track r).table = s.table := by
  unfold State.track State.trackOutOfOrder; split <;> (try split) <;> simp
@[simp] theorem State.track_vote (r : VoteResult) : (s.track r).vote = s.vote := by
  unfold State.track State.trackOutOfOrder; split <;> (try split) <;> simp
@[simp] theorem State.track_health (r : VoteResult) : (s.track r).health = s.health := by
  unfold State.track State.trackOutOfOrder; split <;> (try split) <;> simp
@[simp] theorem State.track_healthConfig (r : VoteResult) : (s.track r).healthConfig = s.healthConfig := by
  unfold State.track State.trackOutOfOrder; split <;> (try split) <;> simp
@[simp] theorem State.track_limits (r : VoteResult) : (s.track r).limits = s.limits := by
  unfold State.track State.trackOutOfOrder; split <;> (try split) <;> simp
@[simp] theorem State.track_command (r : VoteResult) : (s.track r).command = s.command := by
  unfold State.track State.trackOutOfOrder; split <;> (try split) <;> simp
@[simp] theorem State.track_window (r : VoteResult) : (s.track r).window = s.window := by
  unfold State.track State.trackOutOfOrder; split <;> (try split) <;> simp
@[simp] theorem State.track_pending (r : VoteResult) : (s.track r).pending = s.pending := by
  unfold State.track State.trackOutOfOrder; split <;> (try split) <;> simp
@[simp] theorem State.track_resetAsserted (r : VoteResult) : (s.track r).resetAsserted = s.resetAsserted := by
  unfold State.track State.trackOutOfOrder; split <;> (try split) <;> simp

/-! A stall. -/

@[simp] theorem State.expireStall_timebase : (s.expireStall).timebase = s.timebase := by simp [State.expireStall, State.flagStall]
@[simp] theorem State.expireStall_lanePins : (s.expireStall).lanePins = s.lanePins := by simp [State.expireStall, State.flagStall]
@[simp] theorem State.expireStall_laneConfig : (s.expireStall).laneConfig = s.laneConfig := by simp [State.expireStall, State.flagStall]
@[simp] theorem State.expireStall_frontEnds : (s.expireStall).frontEnds = s.frontEnds := by simp [State.expireStall, State.flagStall]
@[simp] theorem State.expireStall_table : (s.expireStall).table = s.table := by simp [State.expireStall, State.flagStall]
@[simp] theorem State.expireStall_vote : (s.expireStall).vote = s.vote := by simp [State.expireStall, State.flagStall]
@[simp] theorem State.expireStall_health : (s.expireStall).health = s.health := by simp [State.expireStall, State.flagStall]
@[simp] theorem State.expireStall_healthConfig : (s.expireStall).healthConfig = s.healthConfig := by simp [State.expireStall, State.flagStall]
@[simp] theorem State.expireStall_limits : (s.expireStall).limits = s.limits := by simp [State.expireStall, State.flagStall]
@[simp] theorem State.expireStall_schedule : (s.expireStall).schedule = s.schedule := by simp [State.expireStall, State.flagStall]
@[simp] theorem State.expireStall_armed : (s.expireStall).armed = s.armed := by simp [State.expireStall, State.flagStall]
@[simp] theorem State.expireStall_output : (s.expireStall).output = s.output := by simp [State.expireStall, State.flagStall]
@[simp] theorem State.expireStall_command : (s.expireStall).command = s.command := by simp [State.expireStall, State.flagStall]
@[simp] theorem State.expireStall_stats : (s.expireStall).stats = s.stats := by simp [State.expireStall, State.flagStall]
@[simp] theorem State.expireStall_window : (s.expireStall).window = s.window := by simp [State.expireStall, State.flagStall]
@[simp] theorem State.expireStall_pending : (s.expireStall).pending = s.pending := by simp [State.expireStall, State.flagStall]
@[simp] theorem State.expireStall_resetAsserted : (s.expireStall).resetAsserted = s.resetAsserted := by simp [State.expireStall, State.flagStall]

/-! The vote counters. -/

@[simp] theorem State.countVote_timebase (r : VoteResult) : (s.countVote r).timebase = s.timebase := rfl
@[simp] theorem State.countVote_lanePins (r : VoteResult) : (s.countVote r).lanePins = s.lanePins := rfl
@[simp] theorem State.countVote_laneConfig (r : VoteResult) : (s.countVote r).laneConfig = s.laneConfig := rfl
@[simp] theorem State.countVote_frontEnds (r : VoteResult) : (s.countVote r).frontEnds = s.frontEnds := rfl
@[simp] theorem State.countVote_table (r : VoteResult) : (s.countVote r).table = s.table := rfl
@[simp] theorem State.countVote_vote (r : VoteResult) : (s.countVote r).vote = s.vote := rfl
@[simp] theorem State.countVote_health (r : VoteResult) : (s.countVote r).health = s.health := rfl
@[simp] theorem State.countVote_healthConfig (r : VoteResult) : (s.countVote r).healthConfig = s.healthConfig := rfl
@[simp] theorem State.countVote_tracker (r : VoteResult) : (s.countVote r).tracker = s.tracker := rfl
@[simp] theorem State.countVote_limits (r : VoteResult) : (s.countVote r).limits = s.limits := rfl
@[simp] theorem State.countVote_queue (r : VoteResult) : (s.countVote r).queue = s.queue := rfl
@[simp] theorem State.countVote_schedule (r : VoteResult) : (s.countVote r).schedule = s.schedule := rfl
@[simp] theorem State.countVote_armed (r : VoteResult) : (s.countVote r).armed = s.armed := rfl
@[simp] theorem State.countVote_output (r : VoteResult) : (s.countVote r).output = s.output := rfl
@[simp] theorem State.countVote_command (r : VoteResult) : (s.countVote r).command = s.command := rfl
@[simp] theorem State.countVote_interrupt (r : VoteResult) : (s.countVote r).interrupt = s.interrupt := rfl
@[simp] theorem State.countVote_window (r : VoteResult) : (s.countVote r).window = s.window := rfl
@[simp] theorem State.countVote_pending (r : VoteResult) : (s.countVote r).pending = s.pending := rfl
@[simp] theorem State.countVote_resetAsserted (r : VoteResult) : (s.countVote r).resetAsserted = s.resetAsserted := rfl

/-! A LANE record. -/

@[simp] theorem State.reportLane_timebase (f : LaneFields) : (s.reportLane f).timebase = s.timebase := by simp [State.reportLane, State.flagLane]
@[simp] theorem State.reportLane_lanePins (f : LaneFields) : (s.reportLane f).lanePins = s.lanePins := by simp [State.reportLane, State.flagLane]
@[simp] theorem State.reportLane_laneConfig (f : LaneFields) : (s.reportLane f).laneConfig = s.laneConfig := by simp [State.reportLane, State.flagLane]
@[simp] theorem State.reportLane_frontEnds (f : LaneFields) : (s.reportLane f).frontEnds = s.frontEnds := by simp [State.reportLane, State.flagLane]
@[simp] theorem State.reportLane_table (f : LaneFields) : (s.reportLane f).table = s.table := by simp [State.reportLane, State.flagLane]
@[simp] theorem State.reportLane_vote (f : LaneFields) : (s.reportLane f).vote = s.vote := by simp [State.reportLane, State.flagLane]
@[simp] theorem State.reportLane_health (f : LaneFields) : (s.reportLane f).health = s.health := by simp [State.reportLane, State.flagLane]
@[simp] theorem State.reportLane_healthConfig (f : LaneFields) : (s.reportLane f).healthConfig = s.healthConfig := by simp [State.reportLane, State.flagLane]
@[simp] theorem State.reportLane_tracker (f : LaneFields) : (s.reportLane f).tracker = s.tracker := by simp [State.reportLane, State.flagLane]
@[simp] theorem State.reportLane_limits (f : LaneFields) : (s.reportLane f).limits = s.limits := by simp [State.reportLane, State.flagLane]
@[simp] theorem State.reportLane_schedule (f : LaneFields) : (s.reportLane f).schedule = s.schedule := by simp [State.reportLane, State.flagLane]
@[simp] theorem State.reportLane_armed (f : LaneFields) : (s.reportLane f).armed = s.armed := by simp [State.reportLane, State.flagLane]
@[simp] theorem State.reportLane_output (f : LaneFields) : (s.reportLane f).output = s.output := by simp [State.reportLane, State.flagLane]
@[simp] theorem State.reportLane_command (f : LaneFields) : (s.reportLane f).command = s.command := by simp [State.reportLane, State.flagLane]
@[simp] theorem State.reportLane_stats (f : LaneFields) : (s.reportLane f).stats = s.stats := by simp [State.reportLane, State.flagLane]
@[simp] theorem State.reportLane_window (f : LaneFields) : (s.reportLane f).window = s.window := by simp [State.reportLane, State.flagLane]
@[simp] theorem State.reportLane_pending (f : LaneFields) : (s.reportLane f).pending = s.pending := by simp [State.reportLane, State.flagLane]
@[simp] theorem State.reportLane_resetAsserted (f : LaneFields) : (s.reportLane f).resetAsserted = s.resetAsserted := by simp [State.reportLane, State.flagLane]

/-! The report of one assessed lane. -/

@[simp] theorem State.reportAssessed_timebase (n : Word) (old : LaneState) (lane : Lane) : (s.reportAssessed n old lane).timebase = s.timebase := by
  unfold State.reportAssessed; dsimp only; split <;> simp
@[simp] theorem State.reportAssessed_lanePins (n : Word) (old : LaneState) (lane : Lane) : (s.reportAssessed n old lane).lanePins = s.lanePins := by
  unfold State.reportAssessed; dsimp only; split <;> simp
@[simp] theorem State.reportAssessed_laneConfig (n : Word) (old : LaneState) (lane : Lane) : (s.reportAssessed n old lane).laneConfig = s.laneConfig := by
  unfold State.reportAssessed; dsimp only; split <;> simp
@[simp] theorem State.reportAssessed_frontEnds (n : Word) (old : LaneState) (lane : Lane) : (s.reportAssessed n old lane).frontEnds = s.frontEnds := by
  unfold State.reportAssessed; dsimp only; split <;> simp
@[simp] theorem State.reportAssessed_table (n : Word) (old : LaneState) (lane : Lane) : (s.reportAssessed n old lane).table = s.table := by
  unfold State.reportAssessed; dsimp only; split <;> simp
@[simp] theorem State.reportAssessed_vote (n : Word) (old : LaneState) (lane : Lane) : (s.reportAssessed n old lane).vote = s.vote := by
  unfold State.reportAssessed; dsimp only; split <;> simp
@[simp] theorem State.reportAssessed_health (n : Word) (old : LaneState) (lane : Lane) : (s.reportAssessed n old lane).health = s.health := by
  unfold State.reportAssessed; dsimp only; split <;> simp
@[simp] theorem State.reportAssessed_healthConfig (n : Word) (old : LaneState) (lane : Lane) : (s.reportAssessed n old lane).healthConfig = s.healthConfig := by
  unfold State.reportAssessed; dsimp only; split <;> simp
@[simp] theorem State.reportAssessed_tracker (n : Word) (old : LaneState) (lane : Lane) : (s.reportAssessed n old lane).tracker = s.tracker := by
  unfold State.reportAssessed; dsimp only; split <;> simp
@[simp] theorem State.reportAssessed_limits (n : Word) (old : LaneState) (lane : Lane) : (s.reportAssessed n old lane).limits = s.limits := by
  unfold State.reportAssessed; dsimp only; split <;> simp
@[simp] theorem State.reportAssessed_schedule (n : Word) (old : LaneState) (lane : Lane) : (s.reportAssessed n old lane).schedule = s.schedule := by
  unfold State.reportAssessed; dsimp only; split <;> simp
@[simp] theorem State.reportAssessed_armed (n : Word) (old : LaneState) (lane : Lane) : (s.reportAssessed n old lane).armed = s.armed := by
  unfold State.reportAssessed; dsimp only; split <;> simp
@[simp] theorem State.reportAssessed_output (n : Word) (old : LaneState) (lane : Lane) : (s.reportAssessed n old lane).output = s.output := by
  unfold State.reportAssessed; dsimp only; split <;> simp
@[simp] theorem State.reportAssessed_command (n : Word) (old : LaneState) (lane : Lane) : (s.reportAssessed n old lane).command = s.command := by
  unfold State.reportAssessed; dsimp only; split <;> simp
@[simp] theorem State.reportAssessed_stats (n : Word) (old : LaneState) (lane : Lane) : (s.reportAssessed n old lane).stats = s.stats := by
  unfold State.reportAssessed; dsimp only; split <;> simp
@[simp] theorem State.reportAssessed_window (n : Word) (old : LaneState) (lane : Lane) : (s.reportAssessed n old lane).window = s.window := by
  unfold State.reportAssessed; dsimp only; split <;> simp
@[simp] theorem State.reportAssessed_pending (n : Word) (old : LaneState) (lane : Lane) : (s.reportAssessed n old lane).pending = s.pending := by
  unfold State.reportAssessed; dsimp only; split <;> simp
@[simp] theorem State.reportAssessed_resetAsserted (n : Word) (old : LaneState) (lane : Lane) : (s.reportAssessed n old lane).resetAsserted = s.resetAsserted := by
  unfold State.reportAssessed; dsimp only; split <;> simp

/-! The health monitor's work for one group. -/

@[simp] theorem State.assess_timebase (r : VoteResult) : (s.assess r).timebase = s.timebase := by simp [State.assess]
@[simp] theorem State.assess_lanePins (r : VoteResult) : (s.assess r).lanePins = s.lanePins := by simp [State.assess]
@[simp] theorem State.assess_laneConfig (r : VoteResult) : (s.assess r).laneConfig = s.laneConfig := by simp [State.assess]
@[simp] theorem State.assess_frontEnds (r : VoteResult) : (s.assess r).frontEnds = s.frontEnds := by simp [State.assess]
@[simp] theorem State.assess_table (r : VoteResult) : (s.assess r).table = s.table := by simp [State.assess]
@[simp] theorem State.assess_vote (r : VoteResult) : (s.assess r).vote = s.vote := by simp [State.assess]
@[simp] theorem State.assess_healthConfig (r : VoteResult) : (s.assess r).healthConfig = s.healthConfig := by simp [State.assess]
@[simp] theorem State.assess_tracker (r : VoteResult) : (s.assess r).tracker = s.tracker := by simp [State.assess]
@[simp] theorem State.assess_limits (r : VoteResult) : (s.assess r).limits = s.limits := by simp [State.assess]
@[simp] theorem State.assess_schedule (r : VoteResult) : (s.assess r).schedule = s.schedule := by simp [State.assess]
@[simp] theorem State.assess_armed (r : VoteResult) : (s.assess r).armed = s.armed := by simp [State.assess]
@[simp] theorem State.assess_output (r : VoteResult) : (s.assess r).output = s.output := by simp [State.assess]
@[simp] theorem State.assess_command (r : VoteResult) : (s.assess r).command = s.command := by simp [State.assess]
@[simp] theorem State.assess_stats (r : VoteResult) : (s.assess r).stats = s.stats := by simp [State.assess]
@[simp] theorem State.assess_window (r : VoteResult) : (s.assess r).window = s.window := by simp [State.assess]
@[simp] theorem State.assess_pending (r : VoteResult) : (s.assess r).pending = s.pending := by simp [State.assess]
@[simp] theorem State.assess_resetAsserted (r : VoteResult) : (s.assess r).resetAsserted = s.resetAsserted := by simp [State.assess]

/-! A close takes its number and is counted. -/

@[simp] theorem State.takeNumber_timebase (r : CloseReason) : (s.takeNumber r).timebase = s.timebase := rfl
@[simp] theorem State.takeNumber_lanePins (r : CloseReason) : (s.takeNumber r).lanePins = s.lanePins := rfl
@[simp] theorem State.takeNumber_laneConfig (r : CloseReason) : (s.takeNumber r).laneConfig = s.laneConfig := rfl
@[simp] theorem State.takeNumber_frontEnds (r : CloseReason) : (s.takeNumber r).frontEnds = s.frontEnds := rfl
@[simp] theorem State.takeNumber_vote (r : CloseReason) : (s.takeNumber r).vote = s.vote := rfl
@[simp] theorem State.takeNumber_health (r : CloseReason) : (s.takeNumber r).health = s.health := rfl
@[simp] theorem State.takeNumber_healthConfig (r : CloseReason) : (s.takeNumber r).healthConfig = s.healthConfig := rfl
@[simp] theorem State.takeNumber_tracker (r : CloseReason) : (s.takeNumber r).tracker = s.tracker := rfl
@[simp] theorem State.takeNumber_limits (r : CloseReason) : (s.takeNumber r).limits = s.limits := rfl
@[simp] theorem State.takeNumber_queue (r : CloseReason) : (s.takeNumber r).queue = s.queue := rfl
@[simp] theorem State.takeNumber_schedule (r : CloseReason) : (s.takeNumber r).schedule = s.schedule := rfl
@[simp] theorem State.takeNumber_armed (r : CloseReason) : (s.takeNumber r).armed = s.armed := rfl
@[simp] theorem State.takeNumber_output (r : CloseReason) : (s.takeNumber r).output = s.output := rfl
@[simp] theorem State.takeNumber_command (r : CloseReason) : (s.takeNumber r).command = s.command := rfl
@[simp] theorem State.takeNumber_interrupt (r : CloseReason) : (s.takeNumber r).interrupt = s.interrupt := rfl
@[simp] theorem State.takeNumber_window (r : CloseReason) : (s.takeNumber r).window = s.window := rfl
@[simp] theorem State.takeNumber_pending (r : CloseReason) : (s.takeNumber r).pending = s.pending := rfl
@[simp] theorem State.takeNumber_resetAsserted (r : CloseReason) : (s.takeNumber r).resetAsserted = s.resetAsserted := rfl

/-! A vote result handed on. -/

@[simp] theorem State.handOn_timebase (r : VoteResult) : (s.handOn r).timebase = s.timebase := by simp [State.handOn]
@[simp] theorem State.handOn_lanePins (r : VoteResult) : (s.handOn r).lanePins = s.lanePins := by simp [State.handOn]
@[simp] theorem State.handOn_laneConfig (r : VoteResult) : (s.handOn r).laneConfig = s.laneConfig := by simp [State.handOn]
@[simp] theorem State.handOn_frontEnds (r : VoteResult) : (s.handOn r).frontEnds = s.frontEnds := by simp [State.handOn]
@[simp] theorem State.handOn_table (r : VoteResult) : (s.handOn r).table = s.table := by simp [State.handOn]
@[simp] theorem State.handOn_vote (r : VoteResult) : (s.handOn r).vote = s.vote := by simp [State.handOn]
@[simp] theorem State.handOn_healthConfig (r : VoteResult) : (s.handOn r).healthConfig = s.healthConfig := by simp [State.handOn]
@[simp] theorem State.handOn_limits (r : VoteResult) : (s.handOn r).limits = s.limits := by simp [State.handOn]
@[simp] theorem State.handOn_command (r : VoteResult) : (s.handOn r).command = s.command := by simp [State.handOn]
@[simp] theorem State.handOn_window (r : VoteResult) : (s.handOn r).window = s.window := by simp [State.handOn]
@[simp] theorem State.handOn_pending (r : VoteResult) : (s.handOn r).pending = s.pending := by simp [State.handOn]
@[simp] theorem State.handOn_resetAsserted (r : VoteResult) : (s.handOn r).resetAsserted = s.resetAsserted := by simp [State.handOn]

/-! The act of closing. -/

@[simp] theorem State.closeGroup_timebase (r : CloseReason) (g : OpenGroup) : (s.closeGroup r g).timebase = s.timebase := by simp [State.closeGroup]
@[simp] theorem State.closeGroup_lanePins (r : CloseReason) (g : OpenGroup) : (s.closeGroup r g).lanePins = s.lanePins := by simp [State.closeGroup]
@[simp] theorem State.closeGroup_laneConfig (r : CloseReason) (g : OpenGroup) : (s.closeGroup r g).laneConfig = s.laneConfig := by simp [State.closeGroup]
@[simp] theorem State.closeGroup_frontEnds (r : CloseReason) (g : OpenGroup) : (s.closeGroup r g).frontEnds = s.frontEnds := by simp [State.closeGroup]
@[simp] theorem State.closeGroup_vote (r : CloseReason) (g : OpenGroup) : (s.closeGroup r g).vote = s.vote := by simp [State.closeGroup]
@[simp] theorem State.closeGroup_healthConfig (r : CloseReason) (g : OpenGroup) : (s.closeGroup r g).healthConfig = s.healthConfig := by simp [State.closeGroup]
@[simp] theorem State.closeGroup_limits (r : CloseReason) (g : OpenGroup) : (s.closeGroup r g).limits = s.limits := by simp [State.closeGroup]
@[simp] theorem State.closeGroup_command (r : CloseReason) (g : OpenGroup) : (s.closeGroup r g).command = s.command := by simp [State.closeGroup]
@[simp] theorem State.closeGroup_window (r : CloseReason) (g : OpenGroup) : (s.closeGroup r g).window = s.window := by simp [State.closeGroup]
@[simp] theorem State.closeGroup_pending (r : CloseReason) (g : OpenGroup) : (s.closeGroup r g).pending = s.pending := by simp [State.closeGroup]
@[simp] theorem State.closeGroup_resetAsserted (r : CloseReason) (g : OpenGroup) : (s.closeGroup r g).resetAsserted = s.resetAsserted := by simp [State.closeGroup]

/-! The open groups replaced. -/

@[simp] theorem State.setGroups_timebase (gs : List OpenGroup) : (s.setGroups gs).timebase = s.timebase := rfl
@[simp] theorem State.setGroups_lanePins (gs : List OpenGroup) : (s.setGroups gs).lanePins = s.lanePins := rfl
@[simp] theorem State.setGroups_laneConfig (gs : List OpenGroup) : (s.setGroups gs).laneConfig = s.laneConfig := rfl
@[simp] theorem State.setGroups_frontEnds (gs : List OpenGroup) : (s.setGroups gs).frontEnds = s.frontEnds := rfl
@[simp] theorem State.setGroups_vote (gs : List OpenGroup) : (s.setGroups gs).vote = s.vote := rfl
@[simp] theorem State.setGroups_health (gs : List OpenGroup) : (s.setGroups gs).health = s.health := rfl
@[simp] theorem State.setGroups_healthConfig (gs : List OpenGroup) : (s.setGroups gs).healthConfig = s.healthConfig := rfl
@[simp] theorem State.setGroups_tracker (gs : List OpenGroup) : (s.setGroups gs).tracker = s.tracker := rfl
@[simp] theorem State.setGroups_limits (gs : List OpenGroup) : (s.setGroups gs).limits = s.limits := rfl
@[simp] theorem State.setGroups_queue (gs : List OpenGroup) : (s.setGroups gs).queue = s.queue := rfl
@[simp] theorem State.setGroups_schedule (gs : List OpenGroup) : (s.setGroups gs).schedule = s.schedule := rfl
@[simp] theorem State.setGroups_armed (gs : List OpenGroup) : (s.setGroups gs).armed = s.armed := rfl
@[simp] theorem State.setGroups_output (gs : List OpenGroup) : (s.setGroups gs).output = s.output := rfl
@[simp] theorem State.setGroups_command (gs : List OpenGroup) : (s.setGroups gs).command = s.command := rfl
@[simp] theorem State.setGroups_interrupt (gs : List OpenGroup) : (s.setGroups gs).interrupt = s.interrupt := rfl
@[simp] theorem State.setGroups_stats (gs : List OpenGroup) : (s.setGroups gs).stats = s.stats := rfl
@[simp] theorem State.setGroups_window (gs : List OpenGroup) : (s.setGroups gs).window = s.window := rfl
@[simp] theorem State.setGroups_pending (gs : List OpenGroup) : (s.setGroups gs).pending = s.pending := rfl
@[simp] theorem State.setGroups_resetAsserted (gs : List OpenGroup) : (s.setGroups gs).resetAsserted = s.resetAsserted := rfl

/-! Several groups closed in one act. -/

@[simp] theorem State.closeGroups_timebase (r : CloseReason) (gs : List OpenGroup) : (s.closeGroups r gs).timebase = s.timebase := by
  induction gs generalizing s with
  | nil => rfl
  | cons g rest ih => simp [State.closeGroups, ih]
@[simp] theorem State.closeGroups_lanePins (r : CloseReason) (gs : List OpenGroup) : (s.closeGroups r gs).lanePins = s.lanePins := by
  induction gs generalizing s with
  | nil => rfl
  | cons g rest ih => simp [State.closeGroups, ih]
@[simp] theorem State.closeGroups_laneConfig (r : CloseReason) (gs : List OpenGroup) : (s.closeGroups r gs).laneConfig = s.laneConfig := by
  induction gs generalizing s with
  | nil => rfl
  | cons g rest ih => simp [State.closeGroups, ih]
@[simp] theorem State.closeGroups_frontEnds (r : CloseReason) (gs : List OpenGroup) : (s.closeGroups r gs).frontEnds = s.frontEnds := by
  induction gs generalizing s with
  | nil => rfl
  | cons g rest ih => simp [State.closeGroups, ih]
@[simp] theorem State.closeGroups_vote (r : CloseReason) (gs : List OpenGroup) : (s.closeGroups r gs).vote = s.vote := by
  induction gs generalizing s with
  | nil => rfl
  | cons g rest ih => simp [State.closeGroups, ih]
@[simp] theorem State.closeGroups_healthConfig (r : CloseReason) (gs : List OpenGroup) : (s.closeGroups r gs).healthConfig = s.healthConfig := by
  induction gs generalizing s with
  | nil => rfl
  | cons g rest ih => simp [State.closeGroups, ih]
@[simp] theorem State.closeGroups_limits (r : CloseReason) (gs : List OpenGroup) : (s.closeGroups r gs).limits = s.limits := by
  induction gs generalizing s with
  | nil => rfl
  | cons g rest ih => simp [State.closeGroups, ih]
@[simp] theorem State.closeGroups_command (r : CloseReason) (gs : List OpenGroup) : (s.closeGroups r gs).command = s.command := by
  induction gs generalizing s with
  | nil => rfl
  | cons g rest ih => simp [State.closeGroups, ih]
@[simp] theorem State.closeGroups_window (r : CloseReason) (gs : List OpenGroup) : (s.closeGroups r gs).window = s.window := by
  induction gs generalizing s with
  | nil => rfl
  | cons g rest ih => simp [State.closeGroups, ih]
@[simp] theorem State.closeGroups_pending (r : CloseReason) (gs : List OpenGroup) : (s.closeGroups r gs).pending = s.pending := by
  induction gs generalizing s with
  | nil => rfl
  | cons g rest ih => simp [State.closeGroups, ih]
@[simp] theorem State.closeGroups_resetAsserted (r : CloseReason) (gs : List OpenGroup) : (s.closeGroups r gs).resetAsserted = s.resetAsserted := by
  induction gs generalizing s with
  | nil => rfl
  | cons g rest ih => simp [State.closeGroups, ih]

/-! A placed group stays, or closes. -/

@[simp] theorem State.settlePlaced_timebase (l : List OpenGroup) (g : OpenGroup) (r : List OpenGroup) : (s.settlePlaced l g r).timebase = s.timebase := by
  unfold State.settlePlaced; split <;> simp
@[simp] theorem State.settlePlaced_lanePins (l : List OpenGroup) (g : OpenGroup) (r : List OpenGroup) : (s.settlePlaced l g r).lanePins = s.lanePins := by
  unfold State.settlePlaced; split <;> simp
@[simp] theorem State.settlePlaced_laneConfig (l : List OpenGroup) (g : OpenGroup) (r : List OpenGroup) : (s.settlePlaced l g r).laneConfig = s.laneConfig := by
  unfold State.settlePlaced; split <;> simp
@[simp] theorem State.settlePlaced_frontEnds (l : List OpenGroup) (g : OpenGroup) (r : List OpenGroup) : (s.settlePlaced l g r).frontEnds = s.frontEnds := by
  unfold State.settlePlaced; split <;> simp
@[simp] theorem State.settlePlaced_vote (l : List OpenGroup) (g : OpenGroup) (r : List OpenGroup) : (s.settlePlaced l g r).vote = s.vote := by
  unfold State.settlePlaced; split <;> simp
@[simp] theorem State.settlePlaced_healthConfig (l : List OpenGroup) (g : OpenGroup) (r : List OpenGroup) : (s.settlePlaced l g r).healthConfig = s.healthConfig := by
  unfold State.settlePlaced; split <;> simp
@[simp] theorem State.settlePlaced_limits (l : List OpenGroup) (g : OpenGroup) (r : List OpenGroup) : (s.settlePlaced l g r).limits = s.limits := by
  unfold State.settlePlaced; split <;> simp
@[simp] theorem State.settlePlaced_command (l : List OpenGroup) (g : OpenGroup) (r : List OpenGroup) : (s.settlePlaced l g r).command = s.command := by
  unfold State.settlePlaced; split <;> simp
@[simp] theorem State.settlePlaced_window (l : List OpenGroup) (g : OpenGroup) (r : List OpenGroup) : (s.settlePlaced l g r).window = s.window := by
  unfold State.settlePlaced; split <;> simp
@[simp] theorem State.settlePlaced_pending (l : List OpenGroup) (g : OpenGroup) (r : List OpenGroup) : (s.settlePlaced l g r).pending = s.pending := by
  unfold State.settlePlaced; split <;> simp
@[simp] theorem State.settlePlaced_resetAsserted (l : List OpenGroup) (g : OpenGroup) (r : List OpenGroup) : (s.settlePlaced l g r).resetAsserted = s.resetAsserted := by
  unfold State.settlePlaced; split <;> simp

/-! Room for a new group. -/

@[simp] theorem State.makeRoom_timebase : (s.makeRoom).timebase = s.timebase := by
  unfold State.makeRoom; split
  · rfl
  · split <;> simp
@[simp] theorem State.makeRoom_lanePins : (s.makeRoom).lanePins = s.lanePins := by
  unfold State.makeRoom; split
  · rfl
  · split <;> simp
@[simp] theorem State.makeRoom_laneConfig : (s.makeRoom).laneConfig = s.laneConfig := by
  unfold State.makeRoom; split
  · rfl
  · split <;> simp
@[simp] theorem State.makeRoom_frontEnds : (s.makeRoom).frontEnds = s.frontEnds := by
  unfold State.makeRoom; split
  · rfl
  · split <;> simp
@[simp] theorem State.makeRoom_vote : (s.makeRoom).vote = s.vote := by
  unfold State.makeRoom; split
  · rfl
  · split <;> simp
@[simp] theorem State.makeRoom_healthConfig : (s.makeRoom).healthConfig = s.healthConfig := by
  unfold State.makeRoom; split
  · rfl
  · split <;> simp
@[simp] theorem State.makeRoom_limits : (s.makeRoom).limits = s.limits := by
  unfold State.makeRoom; split
  · rfl
  · split <;> simp
@[simp] theorem State.makeRoom_command : (s.makeRoom).command = s.command := by
  unfold State.makeRoom; split
  · rfl
  · split <;> simp
@[simp] theorem State.makeRoom_window : (s.makeRoom).window = s.window := by
  unfold State.makeRoom; split
  · rfl
  · split <;> simp
@[simp] theorem State.makeRoom_pending : (s.makeRoom).pending = s.pending := by
  unfold State.makeRoom; split
  · rfl
  · split <;> simp
@[simp] theorem State.makeRoom_resetAsserted : (s.makeRoom).resetAsserted = s.resetAsserted := by
  unfold State.makeRoom; split
  · rfl
  · split <;> simp

/-! A group opened. -/

@[simp] theorem State.openGroup_timebase (lane : Lane) (t : Time) : (s.openGroup lane t).timebase = s.timebase := by simp [State.openGroup]
@[simp] theorem State.openGroup_lanePins (lane : Lane) (t : Time) : (s.openGroup lane t).lanePins = s.lanePins := by simp [State.openGroup]
@[simp] theorem State.openGroup_laneConfig (lane : Lane) (t : Time) : (s.openGroup lane t).laneConfig = s.laneConfig := by simp [State.openGroup]
@[simp] theorem State.openGroup_frontEnds (lane : Lane) (t : Time) : (s.openGroup lane t).frontEnds = s.frontEnds := by simp [State.openGroup]
@[simp] theorem State.openGroup_vote (lane : Lane) (t : Time) : (s.openGroup lane t).vote = s.vote := by simp [State.openGroup]
@[simp] theorem State.openGroup_healthConfig (lane : Lane) (t : Time) : (s.openGroup lane t).healthConfig = s.healthConfig := by simp [State.openGroup]
@[simp] theorem State.openGroup_limits (lane : Lane) (t : Time) : (s.openGroup lane t).limits = s.limits := by simp [State.openGroup]
@[simp] theorem State.openGroup_command (lane : Lane) (t : Time) : (s.openGroup lane t).command = s.command := by simp [State.openGroup]
@[simp] theorem State.openGroup_window (lane : Lane) (t : Time) : (s.openGroup lane t).window = s.window := by simp [State.openGroup]
@[simp] theorem State.openGroup_pending (lane : Lane) (t : Time) : (s.openGroup lane t).pending = s.pending := by simp [State.openGroup]
@[simp] theorem State.openGroup_resetAsserted (lane : Lane) (t : Time) : (s.openGroup lane t).resetAsserted = s.resetAsserted := by simp [State.openGroup]

/-! An arrival. -/

@[simp] theorem State.takeArrival_timebase (lane : Lane) (t : Time) : (s.takeArrival lane t).timebase = s.timebase := by
  unfold State.takeArrival; split <;> simp
@[simp] theorem State.takeArrival_lanePins (lane : Lane) (t : Time) : (s.takeArrival lane t).lanePins = s.lanePins := by
  unfold State.takeArrival; split <;> simp
@[simp] theorem State.takeArrival_laneConfig (lane : Lane) (t : Time) : (s.takeArrival lane t).laneConfig = s.laneConfig := by
  unfold State.takeArrival; split <;> simp
@[simp] theorem State.takeArrival_frontEnds (lane : Lane) (t : Time) : (s.takeArrival lane t).frontEnds = s.frontEnds := by
  unfold State.takeArrival; split <;> simp
@[simp] theorem State.takeArrival_vote (lane : Lane) (t : Time) : (s.takeArrival lane t).vote = s.vote := by
  unfold State.takeArrival; split <;> simp
@[simp] theorem State.takeArrival_healthConfig (lane : Lane) (t : Time) : (s.takeArrival lane t).healthConfig = s.healthConfig := by
  unfold State.takeArrival; split <;> simp
@[simp] theorem State.takeArrival_limits (lane : Lane) (t : Time) : (s.takeArrival lane t).limits = s.limits := by
  unfold State.takeArrival; split <;> simp
@[simp] theorem State.takeArrival_command (lane : Lane) (t : Time) : (s.takeArrival lane t).command = s.command := by
  unfold State.takeArrival; split <;> simp
@[simp] theorem State.takeArrival_window (lane : Lane) (t : Time) : (s.takeArrival lane t).window = s.window := by
  unfold State.takeArrival; split <;> simp
@[simp] theorem State.takeArrival_pending (lane : Lane) (t : Time) : (s.takeArrival lane t).pending = s.pending := by
  unfold State.takeArrival; split <;> simp
@[simp] theorem State.takeArrival_resetAsserted (lane : Lane) (t : Time) : (s.takeArrival lane t).resetAsserted = s.resetAsserted := by
  unfold State.takeArrival; split <;> simp

/-! The groups a smaller waiting set completes. -/

@[simp] theorem State.closeComplete_timebase : (s.closeComplete).timebase = s.timebase := by simp [State.closeComplete]
@[simp] theorem State.closeComplete_lanePins : (s.closeComplete).lanePins = s.lanePins := by simp [State.closeComplete]
@[simp] theorem State.closeComplete_laneConfig : (s.closeComplete).laneConfig = s.laneConfig := by simp [State.closeComplete]
@[simp] theorem State.closeComplete_frontEnds : (s.closeComplete).frontEnds = s.frontEnds := by simp [State.closeComplete]
@[simp] theorem State.closeComplete_vote : (s.closeComplete).vote = s.vote := by simp [State.closeComplete]
@[simp] theorem State.closeComplete_healthConfig : (s.closeComplete).healthConfig = s.healthConfig := by simp [State.closeComplete]
@[simp] theorem State.closeComplete_limits : (s.closeComplete).limits = s.limits := by simp [State.closeComplete]
@[simp] theorem State.closeComplete_command : (s.closeComplete).command = s.command := by simp [State.closeComplete]
@[simp] theorem State.closeComplete_window : (s.closeComplete).window = s.window := by simp [State.closeComplete]
@[simp] theorem State.closeComplete_pending : (s.closeComplete).pending = s.pending := by simp [State.closeComplete]
@[simp] theorem State.closeComplete_resetAsserted : (s.closeComplete).resetAsserted = s.resetAsserted := by simp [State.closeComplete]

/-! A group expired. -/

@[simp] theorem State.expireGroup_timebase (k : Nat) (g : OpenGroup) : (s.expireGroup k g).timebase = s.timebase := by simp [State.expireGroup]
@[simp] theorem State.expireGroup_lanePins (k : Nat) (g : OpenGroup) : (s.expireGroup k g).lanePins = s.lanePins := by simp [State.expireGroup]
@[simp] theorem State.expireGroup_laneConfig (k : Nat) (g : OpenGroup) : (s.expireGroup k g).laneConfig = s.laneConfig := by simp [State.expireGroup]
@[simp] theorem State.expireGroup_frontEnds (k : Nat) (g : OpenGroup) : (s.expireGroup k g).frontEnds = s.frontEnds := by simp [State.expireGroup]
@[simp] theorem State.expireGroup_vote (k : Nat) (g : OpenGroup) : (s.expireGroup k g).vote = s.vote := by simp [State.expireGroup]
@[simp] theorem State.expireGroup_healthConfig (k : Nat) (g : OpenGroup) : (s.expireGroup k g).healthConfig = s.healthConfig := by simp [State.expireGroup]
@[simp] theorem State.expireGroup_limits (k : Nat) (g : OpenGroup) : (s.expireGroup k g).limits = s.limits := by simp [State.expireGroup]
@[simp] theorem State.expireGroup_command (k : Nat) (g : OpenGroup) : (s.expireGroup k g).command = s.command := by simp [State.expireGroup]
@[simp] theorem State.expireGroup_window (k : Nat) (g : OpenGroup) : (s.expireGroup k g).window = s.window := by simp [State.expireGroup]
@[simp] theorem State.expireGroup_pending (k : Nat) (g : OpenGroup) : (s.expireGroup k g).pending = s.pending := by simp [State.expireGroup]
@[simp] theorem State.expireGroup_resetAsserted (k : Nat) (g : OpenGroup) : (s.expireGroup k g).resetAsserted = s.resetAsserted := by simp [State.expireGroup]

/-! One front end changed. -/

@[simp] theorem State.updateFrontEnd_timebase (lane : Lane) (f : FrontEnd → FrontEnd) : (s.updateFrontEnd lane f).timebase = s.timebase := rfl
@[simp] theorem State.updateFrontEnd_lanePins (lane : Lane) (f : FrontEnd → FrontEnd) : (s.updateFrontEnd lane f).lanePins = s.lanePins := rfl
@[simp] theorem State.updateFrontEnd_laneConfig (lane : Lane) (f : FrontEnd → FrontEnd) : (s.updateFrontEnd lane f).laneConfig = s.laneConfig := rfl
@[simp] theorem State.updateFrontEnd_table (lane : Lane) (f : FrontEnd → FrontEnd) : (s.updateFrontEnd lane f).table = s.table := rfl
@[simp] theorem State.updateFrontEnd_vote (lane : Lane) (f : FrontEnd → FrontEnd) : (s.updateFrontEnd lane f).vote = s.vote := rfl
@[simp] theorem State.updateFrontEnd_health (lane : Lane) (f : FrontEnd → FrontEnd) : (s.updateFrontEnd lane f).health = s.health := rfl
@[simp] theorem State.updateFrontEnd_healthConfig (lane : Lane) (f : FrontEnd → FrontEnd) : (s.updateFrontEnd lane f).healthConfig = s.healthConfig := rfl
@[simp] theorem State.updateFrontEnd_tracker (lane : Lane) (f : FrontEnd → FrontEnd) : (s.updateFrontEnd lane f).tracker = s.tracker := rfl
@[simp] theorem State.updateFrontEnd_limits (lane : Lane) (f : FrontEnd → FrontEnd) : (s.updateFrontEnd lane f).limits = s.limits := rfl
@[simp] theorem State.updateFrontEnd_queue (lane : Lane) (f : FrontEnd → FrontEnd) : (s.updateFrontEnd lane f).queue = s.queue := rfl
@[simp] theorem State.updateFrontEnd_schedule (lane : Lane) (f : FrontEnd → FrontEnd) : (s.updateFrontEnd lane f).schedule = s.schedule := rfl
@[simp] theorem State.updateFrontEnd_armed (lane : Lane) (f : FrontEnd → FrontEnd) : (s.updateFrontEnd lane f).armed = s.armed := rfl
@[simp] theorem State.updateFrontEnd_output (lane : Lane) (f : FrontEnd → FrontEnd) : (s.updateFrontEnd lane f).output = s.output := rfl
@[simp] theorem State.updateFrontEnd_command (lane : Lane) (f : FrontEnd → FrontEnd) : (s.updateFrontEnd lane f).command = s.command := rfl
@[simp] theorem State.updateFrontEnd_interrupt (lane : Lane) (f : FrontEnd → FrontEnd) : (s.updateFrontEnd lane f).interrupt = s.interrupt := rfl
@[simp] theorem State.updateFrontEnd_stats (lane : Lane) (f : FrontEnd → FrontEnd) : (s.updateFrontEnd lane f).stats = s.stats := rfl
@[simp] theorem State.updateFrontEnd_window (lane : Lane) (f : FrontEnd → FrontEnd) : (s.updateFrontEnd lane f).window = s.window := rfl
@[simp] theorem State.updateFrontEnd_pending (lane : Lane) (f : FrontEnd → FrontEnd) : (s.updateFrontEnd lane f).pending = s.pending := rfl
@[simp] theorem State.updateFrontEnd_resetAsserted (lane : Lane) (f : FrontEnd → FrontEnd) : (s.updateFrontEnd lane f).resetAsserted = s.resetAsserted := rfl

/-! One lane's counters changed. -/

@[simp] theorem State.countLane_timebase (lane : Lane) (f : LaneCounters → LaneCounters) : (s.countLane lane f).timebase = s.timebase := rfl
@[simp] theorem State.countLane_lanePins (lane : Lane) (f : LaneCounters → LaneCounters) : (s.countLane lane f).lanePins = s.lanePins := rfl
@[simp] theorem State.countLane_laneConfig (lane : Lane) (f : LaneCounters → LaneCounters) : (s.countLane lane f).laneConfig = s.laneConfig := rfl
@[simp] theorem State.countLane_frontEnds (lane : Lane) (f : LaneCounters → LaneCounters) : (s.countLane lane f).frontEnds = s.frontEnds := rfl
@[simp] theorem State.countLane_table (lane : Lane) (f : LaneCounters → LaneCounters) : (s.countLane lane f).table = s.table := rfl
@[simp] theorem State.countLane_vote (lane : Lane) (f : LaneCounters → LaneCounters) : (s.countLane lane f).vote = s.vote := rfl
@[simp] theorem State.countLane_health (lane : Lane) (f : LaneCounters → LaneCounters) : (s.countLane lane f).health = s.health := rfl
@[simp] theorem State.countLane_healthConfig (lane : Lane) (f : LaneCounters → LaneCounters) : (s.countLane lane f).healthConfig = s.healthConfig := rfl
@[simp] theorem State.countLane_tracker (lane : Lane) (f : LaneCounters → LaneCounters) : (s.countLane lane f).tracker = s.tracker := rfl
@[simp] theorem State.countLane_limits (lane : Lane) (f : LaneCounters → LaneCounters) : (s.countLane lane f).limits = s.limits := rfl
@[simp] theorem State.countLane_queue (lane : Lane) (f : LaneCounters → LaneCounters) : (s.countLane lane f).queue = s.queue := rfl
@[simp] theorem State.countLane_schedule (lane : Lane) (f : LaneCounters → LaneCounters) : (s.countLane lane f).schedule = s.schedule := rfl
@[simp] theorem State.countLane_armed (lane : Lane) (f : LaneCounters → LaneCounters) : (s.countLane lane f).armed = s.armed := rfl
@[simp] theorem State.countLane_output (lane : Lane) (f : LaneCounters → LaneCounters) : (s.countLane lane f).output = s.output := rfl
@[simp] theorem State.countLane_command (lane : Lane) (f : LaneCounters → LaneCounters) : (s.countLane lane f).command = s.command := rfl
@[simp] theorem State.countLane_interrupt (lane : Lane) (f : LaneCounters → LaneCounters) : (s.countLane lane f).interrupt = s.interrupt := rfl
@[simp] theorem State.countLane_window (lane : Lane) (f : LaneCounters → LaneCounters) : (s.countLane lane f).window = s.window := rfl
@[simp] theorem State.countLane_pending (lane : Lane) (f : LaneCounters → LaneCounters) : (s.countLane lane f).pending = s.pending := rfl
@[simp] theorem State.countLane_resetAsserted (lane : Lane) (f : LaneCounters → LaneCounters) : (s.countLane lane f).resetAsserted = s.resetAsserted := rfl

/-! An accepted edge. -/

@[simp] theorem State.acceptEdge_timebase (lane : Lane) (t : Time) : (s.acceptEdge lane t).timebase = s.timebase := by simp [State.acceptEdge]
@[simp] theorem State.acceptEdge_lanePins (lane : Lane) (t : Time) : (s.acceptEdge lane t).lanePins = s.lanePins := by simp [State.acceptEdge]
@[simp] theorem State.acceptEdge_laneConfig (lane : Lane) (t : Time) : (s.acceptEdge lane t).laneConfig = s.laneConfig := by simp [State.acceptEdge]
@[simp] theorem State.acceptEdge_vote (lane : Lane) (t : Time) : (s.acceptEdge lane t).vote = s.vote := by simp [State.acceptEdge]
@[simp] theorem State.acceptEdge_healthConfig (lane : Lane) (t : Time) : (s.acceptEdge lane t).healthConfig = s.healthConfig := by simp [State.acceptEdge]
@[simp] theorem State.acceptEdge_limits (lane : Lane) (t : Time) : (s.acceptEdge lane t).limits = s.limits := by simp [State.acceptEdge]
@[simp] theorem State.acceptEdge_command (lane : Lane) (t : Time) : (s.acceptEdge lane t).command = s.command := by simp [State.acceptEdge]
@[simp] theorem State.acceptEdge_window (lane : Lane) (t : Time) : (s.acceptEdge lane t).window = s.window := by simp [State.acceptEdge]
@[simp] theorem State.acceptEdge_pending (lane : Lane) (t : Time) : (s.acceptEdge lane t).pending = s.pending := by simp [State.acceptEdge]
@[simp] theorem State.acceptEdge_resetAsserted (lane : Lane) (t : Time) : (s.acceptEdge lane t).resetAsserted = s.resetAsserted := by simp [State.acceptEdge]

/-! A confirmed transition. -/

@[simp] theorem State.confirmEdge_timebase (lane : Lane) (level : Bool) (t : Time) : (s.confirmEdge lane level t).timebase = s.timebase := by
  unfold State.confirmEdge; dsimp only; split
  · split <;> simp
  · rfl
@[simp] theorem State.confirmEdge_lanePins (lane : Lane) (level : Bool) (t : Time) : (s.confirmEdge lane level t).lanePins = s.lanePins := by
  unfold State.confirmEdge; dsimp only; split
  · split <;> simp
  · rfl
@[simp] theorem State.confirmEdge_laneConfig (lane : Lane) (level : Bool) (t : Time) : (s.confirmEdge lane level t).laneConfig = s.laneConfig := by
  unfold State.confirmEdge; dsimp only; split
  · split <;> simp
  · rfl
@[simp] theorem State.confirmEdge_vote (lane : Lane) (level : Bool) (t : Time) : (s.confirmEdge lane level t).vote = s.vote := by
  unfold State.confirmEdge; dsimp only; split
  · split <;> simp
  · rfl
@[simp] theorem State.confirmEdge_healthConfig (lane : Lane) (level : Bool) (t : Time) : (s.confirmEdge lane level t).healthConfig = s.healthConfig := by
  unfold State.confirmEdge; dsimp only; split
  · split <;> simp
  · rfl
@[simp] theorem State.confirmEdge_limits (lane : Lane) (level : Bool) (t : Time) : (s.confirmEdge lane level t).limits = s.limits := by
  unfold State.confirmEdge; dsimp only; split
  · split <;> simp
  · rfl
@[simp] theorem State.confirmEdge_command (lane : Lane) (level : Bool) (t : Time) : (s.confirmEdge lane level t).command = s.command := by
  unfold State.confirmEdge; dsimp only; split
  · split <;> simp
  · rfl
@[simp] theorem State.confirmEdge_window (lane : Lane) (level : Bool) (t : Time) : (s.confirmEdge lane level t).window = s.window := by
  unfold State.confirmEdge; dsimp only; split
  · split <;> simp
  · rfl
@[simp] theorem State.confirmEdge_pending (lane : Lane) (level : Bool) (t : Time) : (s.confirmEdge lane level t).pending = s.pending := by
  unfold State.confirmEdge; dsimp only; split
  · split <;> simp
  · rfl
@[simp] theorem State.confirmEdge_resetAsserted (lane : Lane) (level : Bool) (t : Time) : (s.confirmEdge lane level t).resetAsserted = s.resetAsserted := by
  unfold State.confirmEdge; dsimp only; split
  · split <;> simp
  · rfl

/-! A sample. -/

@[simp] theorem State.takeSample_timebase (lane : Lane) (level : Bool) : (s.takeSample lane level).timebase = s.timebase := by
  unfold State.takeSample; dsimp only; split <;> simp
@[simp] theorem State.takeSample_lanePins (lane : Lane) (level : Bool) : (s.takeSample lane level).lanePins = s.lanePins := by
  unfold State.takeSample; dsimp only; split <;> simp
@[simp] theorem State.takeSample_laneConfig (lane : Lane) (level : Bool) : (s.takeSample lane level).laneConfig = s.laneConfig := by
  unfold State.takeSample; dsimp only; split <;> simp
@[simp] theorem State.takeSample_vote (lane : Lane) (level : Bool) : (s.takeSample lane level).vote = s.vote := by
  unfold State.takeSample; dsimp only; split <;> simp
@[simp] theorem State.takeSample_healthConfig (lane : Lane) (level : Bool) : (s.takeSample lane level).healthConfig = s.healthConfig := by
  unfold State.takeSample; dsimp only; split <;> simp
@[simp] theorem State.takeSample_limits (lane : Lane) (level : Bool) : (s.takeSample lane level).limits = s.limits := by
  unfold State.takeSample; dsimp only; split <;> simp
@[simp] theorem State.takeSample_command (lane : Lane) (level : Bool) : (s.takeSample lane level).command = s.command := by
  unfold State.takeSample; dsimp only; split <;> simp
@[simp] theorem State.takeSample_window (lane : Lane) (level : Bool) : (s.takeSample lane level).window = s.window := by
  unfold State.takeSample; dsimp only; split <;> simp
@[simp] theorem State.takeSample_pending (lane : Lane) (level : Bool) : (s.takeSample lane level).pending = s.pending := by
  unfold State.takeSample; dsimp only; split <;> simp
@[simp] theorem State.takeSample_resetAsserted (lane : Lane) (level : Bool) : (s.takeSample lane level).resetAsserted = s.resetAsserted := by
  unfold State.takeSample; dsimp only; split <;> simp

/-! A lane command's change of state. -/

@[simp] theorem State.commandLane_timebase (lane : Lane) (new : LaneState) (c : LaneCause) : (s.commandLane lane new c).timebase = s.timebase := by simp [State.commandLane, State.setLaneHealth]
@[simp] theorem State.commandLane_lanePins (lane : Lane) (new : LaneState) (c : LaneCause) : (s.commandLane lane new c).lanePins = s.lanePins := by simp [State.commandLane, State.setLaneHealth]
@[simp] theorem State.commandLane_laneConfig (lane : Lane) (new : LaneState) (c : LaneCause) : (s.commandLane lane new c).laneConfig = s.laneConfig := by simp [State.commandLane, State.setLaneHealth]
@[simp] theorem State.commandLane_frontEnds (lane : Lane) (new : LaneState) (c : LaneCause) : (s.commandLane lane new c).frontEnds = s.frontEnds := by simp [State.commandLane, State.setLaneHealth]
@[simp] theorem State.commandLane_table (lane : Lane) (new : LaneState) (c : LaneCause) : (s.commandLane lane new c).table = s.table := by simp [State.commandLane, State.setLaneHealth]
@[simp] theorem State.commandLane_vote (lane : Lane) (new : LaneState) (c : LaneCause) : (s.commandLane lane new c).vote = s.vote := by simp [State.commandLane, State.setLaneHealth]
@[simp] theorem State.commandLane_healthConfig (lane : Lane) (new : LaneState) (c : LaneCause) : (s.commandLane lane new c).healthConfig = s.healthConfig := by simp [State.commandLane, State.setLaneHealth]
@[simp] theorem State.commandLane_tracker (lane : Lane) (new : LaneState) (c : LaneCause) : (s.commandLane lane new c).tracker = s.tracker := by simp [State.commandLane, State.setLaneHealth]
@[simp] theorem State.commandLane_limits (lane : Lane) (new : LaneState) (c : LaneCause) : (s.commandLane lane new c).limits = s.limits := by simp [State.commandLane, State.setLaneHealth]
@[simp] theorem State.commandLane_schedule (lane : Lane) (new : LaneState) (c : LaneCause) : (s.commandLane lane new c).schedule = s.schedule := by simp [State.commandLane, State.setLaneHealth]
@[simp] theorem State.commandLane_armed (lane : Lane) (new : LaneState) (c : LaneCause) : (s.commandLane lane new c).armed = s.armed := by simp [State.commandLane, State.setLaneHealth]
@[simp] theorem State.commandLane_output (lane : Lane) (new : LaneState) (c : LaneCause) : (s.commandLane lane new c).output = s.output := by simp [State.commandLane, State.setLaneHealth]
@[simp] theorem State.commandLane_command (lane : Lane) (new : LaneState) (c : LaneCause) : (s.commandLane lane new c).command = s.command := by simp [State.commandLane, State.setLaneHealth]
@[simp] theorem State.commandLane_stats (lane : Lane) (new : LaneState) (c : LaneCause) : (s.commandLane lane new c).stats = s.stats := by simp [State.commandLane, State.setLaneHealth]
@[simp] theorem State.commandLane_window (lane : Lane) (new : LaneState) (c : LaneCause) : (s.commandLane lane new c).window = s.window := by simp [State.commandLane, State.setLaneHealth]
@[simp] theorem State.commandLane_pending (lane : Lane) (new : LaneState) (c : LaneCause) : (s.commandLane lane new c).pending = s.pending := by simp [State.commandLane, State.setLaneHealth]
@[simp] theorem State.commandLane_resetAsserted (lane : Lane) (new : LaneState) (c : LaneCause) : (s.commandLane lane new c).resetAsserted = s.resetAsserted := by simp [State.commandLane, State.setLaneHealth]

/-! LANE ENABLE accepted in RUN. -/

@[simp] theorem State.enableLane_timebase (lane : Lane) : (s.enableLane lane).timebase = s.timebase := by simp [State.enableLane, State.setLaneEnable]
@[simp] theorem State.enableLane_lanePins (lane : Lane) : (s.enableLane lane).lanePins = s.lanePins := by simp [State.enableLane, State.setLaneEnable]
@[simp] theorem State.enableLane_table (lane : Lane) : (s.enableLane lane).table = s.table := by simp [State.enableLane, State.setLaneEnable]
@[simp] theorem State.enableLane_vote (lane : Lane) : (s.enableLane lane).vote = s.vote := by simp [State.enableLane, State.setLaneEnable]
@[simp] theorem State.enableLane_healthConfig (lane : Lane) : (s.enableLane lane).healthConfig = s.healthConfig := by simp [State.enableLane, State.setLaneEnable]
@[simp] theorem State.enableLane_tracker (lane : Lane) : (s.enableLane lane).tracker = s.tracker := by simp [State.enableLane, State.setLaneEnable]
@[simp] theorem State.enableLane_limits (lane : Lane) : (s.enableLane lane).limits = s.limits := by simp [State.enableLane, State.setLaneEnable]
@[simp] theorem State.enableLane_schedule (lane : Lane) : (s.enableLane lane).schedule = s.schedule := by simp [State.enableLane, State.setLaneEnable]
@[simp] theorem State.enableLane_armed (lane : Lane) : (s.enableLane lane).armed = s.armed := by simp [State.enableLane, State.setLaneEnable]
@[simp] theorem State.enableLane_output (lane : Lane) : (s.enableLane lane).output = s.output := by simp [State.enableLane, State.setLaneEnable]
@[simp] theorem State.enableLane_command (lane : Lane) : (s.enableLane lane).command = s.command := by simp [State.enableLane, State.setLaneEnable]
@[simp] theorem State.enableLane_stats (lane : Lane) : (s.enableLane lane).stats = s.stats := by simp [State.enableLane, State.setLaneEnable]
@[simp] theorem State.enableLane_window (lane : Lane) : (s.enableLane lane).window = s.window := by simp [State.enableLane, State.setLaneEnable]
@[simp] theorem State.enableLane_pending (lane : Lane) : (s.enableLane lane).pending = s.pending := by simp [State.enableLane, State.setLaneEnable]
@[simp] theorem State.enableLane_resetAsserted (lane : Lane) : (s.enableLane lane).resetAsserted = s.resetAsserted := by simp [State.enableLane, State.setLaneEnable]

/-! LANE DISABLE accepted in RUN. -/

@[simp] theorem State.disableLane_timebase (lane : Lane) : (s.disableLane lane).timebase = s.timebase := by simp [State.disableLane, State.setLaneEnable]
@[simp] theorem State.disableLane_lanePins (lane : Lane) : (s.disableLane lane).lanePins = s.lanePins := by simp [State.disableLane, State.setLaneEnable]
@[simp] theorem State.disableLane_vote (lane : Lane) : (s.disableLane lane).vote = s.vote := by simp [State.disableLane, State.setLaneEnable]
@[simp] theorem State.disableLane_healthConfig (lane : Lane) : (s.disableLane lane).healthConfig = s.healthConfig := by simp [State.disableLane, State.setLaneEnable]
@[simp] theorem State.disableLane_limits (lane : Lane) : (s.disableLane lane).limits = s.limits := by simp [State.disableLane, State.setLaneEnable]
@[simp] theorem State.disableLane_command (lane : Lane) : (s.disableLane lane).command = s.command := by simp [State.disableLane, State.setLaneEnable]
@[simp] theorem State.disableLane_window (lane : Lane) : (s.disableLane lane).window = s.window := by simp [State.disableLane, State.setLaneEnable]
@[simp] theorem State.disableLane_pending (lane : Lane) : (s.disableLane lane).pending = s.pending := by simp [State.disableLane, State.setLaneEnable]
@[simp] theorem State.disableLane_resetAsserted (lane : Lane) : (s.disableLane lane).resetAsserted = s.resetAsserted := by simp [State.disableLane, State.setLaneEnable]

/-! A command's answer. -/

@[simp] theorem State.answer_timebase (c : BitVec 8) (r : CmdResult) (e : Nat) : (s.answer c r e).timebase = s.timebase := rfl
@[simp] theorem State.answer_lanePins (c : BitVec 8) (r : CmdResult) (e : Nat) : (s.answer c r e).lanePins = s.lanePins := rfl
@[simp] theorem State.answer_laneConfig (c : BitVec 8) (r : CmdResult) (e : Nat) : (s.answer c r e).laneConfig = s.laneConfig := rfl
@[simp] theorem State.answer_frontEnds (c : BitVec 8) (r : CmdResult) (e : Nat) : (s.answer c r e).frontEnds = s.frontEnds := rfl
@[simp] theorem State.answer_table (c : BitVec 8) (r : CmdResult) (e : Nat) : (s.answer c r e).table = s.table := rfl
@[simp] theorem State.answer_vote (c : BitVec 8) (r : CmdResult) (e : Nat) : (s.answer c r e).vote = s.vote := rfl
@[simp] theorem State.answer_health (c : BitVec 8) (r : CmdResult) (e : Nat) : (s.answer c r e).health = s.health := rfl
@[simp] theorem State.answer_healthConfig (c : BitVec 8) (r : CmdResult) (e : Nat) : (s.answer c r e).healthConfig = s.healthConfig := rfl
@[simp] theorem State.answer_tracker (c : BitVec 8) (r : CmdResult) (e : Nat) : (s.answer c r e).tracker = s.tracker := rfl
@[simp] theorem State.answer_limits (c : BitVec 8) (r : CmdResult) (e : Nat) : (s.answer c r e).limits = s.limits := rfl
@[simp] theorem State.answer_queue (c : BitVec 8) (r : CmdResult) (e : Nat) : (s.answer c r e).queue = s.queue := rfl
@[simp] theorem State.answer_schedule (c : BitVec 8) (r : CmdResult) (e : Nat) : (s.answer c r e).schedule = s.schedule := rfl
@[simp] theorem State.answer_armed (c : BitVec 8) (r : CmdResult) (e : Nat) : (s.answer c r e).armed = s.armed := rfl
@[simp] theorem State.answer_output (c : BitVec 8) (r : CmdResult) (e : Nat) : (s.answer c r e).output = s.output := rfl
@[simp] theorem State.answer_interrupt (c : BitVec 8) (r : CmdResult) (e : Nat) : (s.answer c r e).interrupt = s.interrupt := rfl
@[simp] theorem State.answer_stats (c : BitVec 8) (r : CmdResult) (e : Nat) : (s.answer c r e).stats = s.stats := rfl
@[simp] theorem State.answer_window (c : BitVec 8) (r : CmdResult) (e : Nat) : (s.answer c r e).window = s.window := rfl
@[simp] theorem State.answer_pending (c : BitVec 8) (r : CmdResult) (e : Nat) : (s.answer c r e).pending = s.pending := rfl
@[simp] theorem State.answer_resetAsserted (c : BitVec 8) (r : CmdResult) (e : Nat) : (s.answer c r e).resetAsserted = s.resetAsserted := rfl

/-! New limits in RUN. -/

@[simp] theorem State.takeLimits_timebase (l : Limits) : (s.takeLimits l).timebase = s.timebase := rfl
@[simp] theorem State.takeLimits_lanePins (l : Limits) : (s.takeLimits l).lanePins = s.lanePins := rfl
@[simp] theorem State.takeLimits_laneConfig (l : Limits) : (s.takeLimits l).laneConfig = s.laneConfig := rfl
@[simp] theorem State.takeLimits_frontEnds (l : Limits) : (s.takeLimits l).frontEnds = s.frontEnds := rfl
@[simp] theorem State.takeLimits_table (l : Limits) : (s.takeLimits l).table = s.table := rfl
@[simp] theorem State.takeLimits_vote (l : Limits) : (s.takeLimits l).vote = s.vote := rfl
@[simp] theorem State.takeLimits_health (l : Limits) : (s.takeLimits l).health = s.health := rfl
@[simp] theorem State.takeLimits_healthConfig (l : Limits) : (s.takeLimits l).healthConfig = s.healthConfig := rfl
@[simp] theorem State.takeLimits_queue (l : Limits) : (s.takeLimits l).queue = s.queue := rfl
@[simp] theorem State.takeLimits_schedule (l : Limits) : (s.takeLimits l).schedule = s.schedule := rfl
@[simp] theorem State.takeLimits_armed (l : Limits) : (s.takeLimits l).armed = s.armed := rfl
@[simp] theorem State.takeLimits_output (l : Limits) : (s.takeLimits l).output = s.output := rfl
@[simp] theorem State.takeLimits_command (l : Limits) : (s.takeLimits l).command = s.command := rfl
@[simp] theorem State.takeLimits_interrupt (l : Limits) : (s.takeLimits l).interrupt = s.interrupt := rfl
@[simp] theorem State.takeLimits_stats (l : Limits) : (s.takeLimits l).stats = s.stats := rfl
@[simp] theorem State.takeLimits_window (l : Limits) : (s.takeLimits l).window = s.window := rfl
@[simp] theorem State.takeLimits_pending (l : Limits) : (s.takeLimits l).pending = s.pending := rfl
@[simp] theorem State.takeLimits_resetAsserted (l : Limits) : (s.takeLimits l).resetAsserted = s.resetAsserted := rfl

/-! START accepted. -/

@[simp] theorem State.startRun_timebase : (s.startRun).timebase = s.timebase := by simp [State.startRun]
@[simp] theorem State.startRun_lanePins : (s.startRun).lanePins = s.lanePins := by simp [State.startRun]
@[simp] theorem State.startRun_laneConfig : (s.startRun).laneConfig = s.laneConfig := by simp [State.startRun]
@[simp] theorem State.startRun_vote : (s.startRun).vote = s.vote := by simp [State.startRun]
@[simp] theorem State.startRun_healthConfig : (s.startRun).healthConfig = s.healthConfig := by simp [State.startRun]
@[simp] theorem State.startRun_limits : (s.startRun).limits = s.limits := by simp [State.startRun]
@[simp] theorem State.startRun_schedule : (s.startRun).schedule = s.schedule := by simp [State.startRun]
@[simp] theorem State.startRun_output : (s.startRun).output = s.output := by simp [State.startRun]
@[simp] theorem State.startRun_stats : (s.startRun).stats = s.stats := by simp [State.startRun]
@[simp] theorem State.startRun_window : (s.startRun).window = s.window := by simp [State.startRun]
@[simp] theorem State.startRun_pending : (s.startRun).pending = s.pending := by simp [State.startRun]
@[simp] theorem State.startRun_resetAsserted : (s.startRun).resetAsserted = s.resetAsserted := by simp [State.startRun]

/-! STOP accepted. -/

@[simp] theorem State.stopRun_timebase : (s.stopRun).timebase = s.timebase := by
  simp [State.stopRun, State.stopGroups, State.safeLatches, State.stopFrontEnds]
@[simp] theorem State.stopRun_lanePins : (s.stopRun).lanePins = s.lanePins := by
  simp [State.stopRun, State.stopGroups, State.safeLatches, State.stopFrontEnds]
@[simp] theorem State.stopRun_laneConfig : (s.stopRun).laneConfig = s.laneConfig := by
  simp [State.stopRun, State.stopGroups, State.safeLatches, State.stopFrontEnds]
@[simp] theorem State.stopRun_vote : (s.stopRun).vote = s.vote := by
  simp [State.stopRun, State.stopGroups, State.safeLatches, State.stopFrontEnds]
@[simp] theorem State.stopRun_healthConfig : (s.stopRun).healthConfig = s.healthConfig := by
  simp [State.stopRun, State.stopGroups, State.safeLatches, State.stopFrontEnds]
@[simp] theorem State.stopRun_limits : (s.stopRun).limits = s.limits := by
  simp [State.stopRun, State.stopGroups, State.safeLatches, State.stopFrontEnds]
@[simp] theorem State.stopRun_window : (s.stopRun).window = s.window := by
  simp [State.stopRun, State.stopGroups, State.safeLatches, State.stopFrontEnds]
@[simp] theorem State.stopRun_pending : (s.stopRun).pending = s.pending := by
  simp [State.stopRun, State.stopGroups, State.safeLatches, State.stopFrontEnds]
@[simp] theorem State.stopRun_resetAsserted : (s.stopRun).resetAsserted = s.resetAsserted := by
  simp [State.stopRun, State.stopGroups, State.safeLatches, State.stopFrontEnds]

/-! An armed action expired. -/

@[simp] theorem State.expireArmed_timebase (x : ArmedAction) (rest : List ArmedAction) : (s.expireArmed x rest).timebase = s.timebase := by
  unfold State.expireArmed State.arm; dsimp only; split <;> simp
@[simp] theorem State.expireArmed_lanePins (x : ArmedAction) (rest : List ArmedAction) : (s.expireArmed x rest).lanePins = s.lanePins := by
  unfold State.expireArmed State.arm; dsimp only; split <;> simp
@[simp] theorem State.expireArmed_laneConfig (x : ArmedAction) (rest : List ArmedAction) : (s.expireArmed x rest).laneConfig = s.laneConfig := by
  unfold State.expireArmed State.arm; dsimp only; split <;> simp
@[simp] theorem State.expireArmed_frontEnds (x : ArmedAction) (rest : List ArmedAction) : (s.expireArmed x rest).frontEnds = s.frontEnds := by
  unfold State.expireArmed State.arm; dsimp only; split <;> simp
@[simp] theorem State.expireArmed_table (x : ArmedAction) (rest : List ArmedAction) : (s.expireArmed x rest).table = s.table := by
  unfold State.expireArmed State.arm; dsimp only; split <;> simp
@[simp] theorem State.expireArmed_vote (x : ArmedAction) (rest : List ArmedAction) : (s.expireArmed x rest).vote = s.vote := by
  unfold State.expireArmed State.arm; dsimp only; split <;> simp
@[simp] theorem State.expireArmed_health (x : ArmedAction) (rest : List ArmedAction) : (s.expireArmed x rest).health = s.health := by
  unfold State.expireArmed State.arm; dsimp only; split <;> simp
@[simp] theorem State.expireArmed_healthConfig (x : ArmedAction) (rest : List ArmedAction) : (s.expireArmed x rest).healthConfig = s.healthConfig := by
  unfold State.expireArmed State.arm; dsimp only; split <;> simp
@[simp] theorem State.expireArmed_tracker (x : ArmedAction) (rest : List ArmedAction) : (s.expireArmed x rest).tracker = s.tracker := by
  unfold State.expireArmed State.arm; dsimp only; split <;> simp
@[simp] theorem State.expireArmed_limits (x : ArmedAction) (rest : List ArmedAction) : (s.expireArmed x rest).limits = s.limits := by
  unfold State.expireArmed State.arm; dsimp only; split <;> simp
@[simp] theorem State.expireArmed_queue (x : ArmedAction) (rest : List ArmedAction) : (s.expireArmed x rest).queue = s.queue := by
  unfold State.expireArmed State.arm; dsimp only; split <;> simp
@[simp] theorem State.expireArmed_schedule (x : ArmedAction) (rest : List ArmedAction) : (s.expireArmed x rest).schedule = s.schedule := by
  unfold State.expireArmed State.arm; dsimp only; split <;> simp
@[simp] theorem State.expireArmed_command (x : ArmedAction) (rest : List ArmedAction) : (s.expireArmed x rest).command = s.command := by
  unfold State.expireArmed State.arm; dsimp only; split <;> simp
@[simp] theorem State.expireArmed_interrupt (x : ArmedAction) (rest : List ArmedAction) : (s.expireArmed x rest).interrupt = s.interrupt := by
  unfold State.expireArmed State.arm; dsimp only; split <;> simp
@[simp] theorem State.expireArmed_stats (x : ArmedAction) (rest : List ArmedAction) : (s.expireArmed x rest).stats = s.stats := by
  unfold State.expireArmed State.arm; dsimp only; split <;> simp
@[simp] theorem State.expireArmed_window (x : ArmedAction) (rest : List ArmedAction) : (s.expireArmed x rest).window = s.window := by
  unfold State.expireArmed State.arm; dsimp only; split <;> simp
@[simp] theorem State.expireArmed_pending (x : ArmedAction) (rest : List ArmedAction) : (s.expireArmed x rest).pending = s.pending := by
  unfold State.expireArmed State.arm; dsimp only; split <;> simp
@[simp] theorem State.expireArmed_resetAsserted (x : ArmedAction) (rest : List ArmedAction) : (s.expireArmed x rest).resetAsserted = s.resetAsserted := by
  unfold State.expireArmed State.arm; dsimp only; split <;> simp

end Sys2Proof.Machine
end

