-- ==== Sys2Proof/Laws/Queue.lean ====
section
/-! SUPPORT. The event queue: what an offer does, and that every operation that offers keeps the queue's invariant. -/

namespace Sys2Proof.Machine

theorem changeLast_length (f : Record → Record) (l : List Record) : (changeLast f l).length = l.length := by
  induction l with
  | nil => rfl
  | cons r rest ih => cases rest with
    | nil => rfl
    | cons r' rest => simpa [changeLast] using ih

theorem changeLast_append (f : Record → Record) (l : List Record) (r : Record) : changeLast f (l ++ [r]) = l ++ [f r] := by
  induction l with
  | nil => rfl
  | cons x rest ih => cases rest with
    | nil => rfl
    | cons y rest => simpa [changeLast] using ih

theorem Record.countDrop_seq (r : Record) : r.countDrop.seq = r.seq := by
  unfold Record.countDrop; split <;> rfl

theorem Record.countDrop_isOverrun (r : Record) : r.countDrop.isOverrun = r.isOverrun := by
  rcases r with ⟨n, b⟩; cases b <;> rfl

theorem saturatingNext_ne_zero (n : Word) : saturatingNext n ≠ 0 := by
  unfold saturatingNext; split
  · next h => subst h; decide
  · next h => intro h'; apply h; bv_omega

theorem EventQueue.overrunTail_append (l : List Record) (r : Record) (n : Word) (k : Nat) (a : List Nat) (x : CmdResult) :
    EventQueue.overrunTail { records := l ++ [r], seq := n, threshold := k, acks := a, ackAnswer := x } = r.isOverrun := by
  simp [EventQueue.overrunTail]

/-- The records and the next number are all the invariant looks at. -/
theorem QueueInv.congr {q q' : EventQueue} (h : QueueInv q) (records : q'.records = q.records) (seq : q'.seq = q.seq) :
    QueueInv q' :=
  ⟨by rw [records]; exact h.atMost, by simpa only [EventQueue.overrunTail, records] using h.fullTail, by rw [records]; exact h.apart,
    by rw [records, seq]; exact h.numbers, by rw [records]; exact h.counts⟩

/-- A record appended where the tail and it are not both OVERRUN keeps the invariant, if the queue stays in its bounds. -/
theorem QueueInv.append {q : EventQueue} (h : QueueInv q) (body : RecordBody)
    (room : q.records.length ≤ 30 ∨ q.records.length = 31 ∧ body = .overrun 1)
    (apart : q.overrunTail = false ∨ ({ seq := q.seq, body := body } : Record).isOverrun = false)
    (counts : ∀ n, body = .overrun n → n ≠ 0) : QueueInv (q.append body) := by
  constructor
  · simp only [EventQueue.append, List.length_append, List.length_singleton]; omega
  · intro hl
    simp only [EventQueue.append, List.length_append, List.length_singleton] at hl
    rcases room with hr | ⟨_, hb⟩
    · omega
    · subst hb; simp [EventQueue.append, EventQueue.overrunTail_append, Record.isOverrun]
  · intro i r r' hi hi'
    simp only [EventQueue.append] at hi hi'
    by_cases hlt : i + 1 < q.records.length
    · rw [List.getElem?_append_left (by omega)] at hi
      rw [List.getElem?_append_left hlt] at hi'
      exact h.apart i r r' hi hi'
    · have hlast : i + 1 = q.records.length := by
        have := (List.getElem?_eq_some_iff.mp hi').1
        simp only [List.length_append, List.length_singleton] at this
        omega
      rw [List.getElem?_append_right (by omega)] at hi'
      rw [List.getElem?_append_left (by omega)] at hi
      rw [hlast, Nat.sub_self] at hi'
      simp only [List.getElem?_cons_zero, Option.some.injEq] at hi'
      subst hi'
      rintro ⟨h1, h2⟩
      have htail : q.overrunTail = true := by
        unfold EventQueue.overrunTail
        rw [List.getLast?_eq_getElem?, ← hlast, Nat.add_sub_cancel, hi]
        exact h1
      rcases apart with ha | ha
      · rw [htail] at ha; cases ha
      · rw [ha] at h2; cases h2
  · intro i r hi
    simp only [EventQueue.append] at hi ⊢
    simp only [List.length_append, List.length_singleton]
    by_cases hlt : i < q.records.length
    · rw [List.getElem?_append_left hlt] at hi
      have := h.numbers i r hi
      rw [← this]
      have e : q.records.length + 1 - i = (q.records.length - i) + 1 := by omega
      rw [e, BitVec.ofNat_add, ← BitVec.add_assoc]; rfl
    · have hle := (List.getElem?_eq_some_iff.mp hi).1
      simp only [List.length_append, List.length_singleton] at hle
      have hz : i = q.records.length := by omega
      rw [List.getElem?_append_right (by omega), hz, Nat.sub_self] at hi
      simp only [List.getElem?_cons_zero, Option.some.injEq] at hi
      subst hi; subst hz
      simp
  · intro r hr n hn
    simp only [EventQueue.append, List.mem_append, List.mem_singleton] at hr
    rcases hr with hr | hr
    · exact h.counts r hr n hn
    · subst hr; exact counts n hn

/-- R105: the append rule keeps the invariant; no block offers an OVERRUN record (R100). -/
theorem QueueInv.enqueue {q : EventQueue} (h : QueueInv q) (body : RecordBody) (hb : ∀ n, body ≠ .overrun n) :
    QueueInv (q.enqueue body) := by
  have hno : ∀ n, ({ seq := n, body := body } : Record).isOverrun = false := by
    intro n; cases body <;> first | rfl | exact absurd rfl (hb _)
  unfold EventQueue.enqueue
  split
  · next hd =>
    have hd' : 31 ≤ q.records.length := by simpa [EventQueue.drops] using hd
    split
    · next ht =>
      rcases List.eq_nil_or_concat q.records with hn | ⟨l, r, hr⟩
      · rw [hn] at hd'; simp at hd'
      · rw [List.concat_eq_append] at hr
        have hro : r.isOverrun = true := by
          have := ht; unfold EventQueue.overrunTail at this; rw [hr] at this; simpa using this
        have hq : ({ q with records := changeLast Record.countDrop q.records } : EventQueue) =
            { q with records := l ++ [r.countDrop] } := by rw [hr, changeLast_append]
        rw [hq]
        constructor
        · have := h.atMost; rw [hr] at this; simpa using this
        · intro _; rw [EventQueue.overrunTail_append, Record.countDrop_isOverrun]; exact hro
        · intro i x y hx hy
          have key := h.apart i
          rw [hr] at key
          simp only at hx hy
          have hyl := (List.getElem?_eq_some_iff.mp hy).1
          simp only [List.length_append, List.length_singleton] at hyl
          rw [List.getElem?_append_left (by omega)] at hx
          by_cases hlt : i + 1 < l.length
          · rw [List.getElem?_append_left hlt] at hy
            exact key x y (by rw [List.getElem?_append_left (by omega)]; exact hx)
              (by rw [List.getElem?_append_left hlt]; exact hy)
          · have hz : i + 1 = l.length := by omega
            rw [List.getElem?_append_right (by omega), hz, Nat.sub_self] at hy
            simp only [List.getElem?_cons_zero, Option.some.injEq] at hy
            subst hy
            rw [Record.countDrop_isOverrun]
            exact key x r (by rw [List.getElem?_append_left (by omega)]; exact hx)
              (by rw [List.getElem?_append_right (by omega), hz, Nat.sub_self]; rfl)
        · intro i x hx
          have key := h.numbers i
          rw [hr] at key
          simp only [List.length_append, List.length_singleton] at key hx ⊢
          by_cases hlt : i < l.length
          · rw [List.getElem?_append_left hlt] at hx
            exact key x (by rw [List.getElem?_append_left hlt]; exact hx)
          · have hle := (List.getElem?_eq_some_iff.mp hx).1
            simp only [List.length_append, List.length_singleton] at hle
            have hz : i = l.length := by omega
            rw [List.getElem?_append_right (by omega), hz, Nat.sub_self] at hx
            simp only [List.getElem?_cons_zero, Option.some.injEq] at hx
            subst hx
            rw [Record.countDrop_seq]
            exact key r (by rw [List.getElem?_append_right (by omega), hz, Nat.sub_self]; rfl)
        · intro x hx n hn
          simp only [List.mem_append, List.mem_singleton] at hx
          rcases hx with hx | hx
          · exact h.counts x (by rw [hr]; simp [hx]) n hn
          · subst hx
            rcases r with ⟨k, b⟩
            cases b <;> simp only [Record.isOverrun] at hro <;> try (exact absurd hro (by decide))
            next m =>
              simp only [Record.countDrop, RecordBody.overrun.injEq] at hn
              subst hn; exact saturatingNext_ne_zero m
    · next ht =>
      have hf : q.overrunTail = false := by simpa using ht
      have hlen : q.records.length = 31 := by
        have h1 := h.atMost
        have h2 := h.fullTail
        by_contra hne
        have : q.records.length = 32 := by omega
        rw [h2 this] at hf; cases hf
      exact h.append _ (.inr ⟨hlen, rfl⟩) (.inl hf) (by intro n hn; cases hn; decide)
  · next hd =>
    have hd' : q.records.length ≤ 30 := by
      have : ¬ 31 ≤ q.records.length := by simpa [EventQueue.drops] using hd
      omega
    exact h.append _ (.inl hd') (.inr (hno _)) (by intro n hn; exact absurd hn (hb n))

/-- R108: the head removed. -/
theorem QueueInv.tail {q : EventQueue} (h : QueueInv q) {r : Record} {rest : List Record} (hq : q.records = r :: rest) :
    QueueInv { q with records := rest } := by
  constructor
  · have := h.atMost; rw [hq] at this; simp at this; simp only; omega
  · intro hl
    have := h.atMost; rw [hq] at this; simp at this; simp only at hl; omega
  · intro i x y hx hy
    have := h.apart (i + 1) x y
    rw [hq] at this
    simpa using this (by simpa using hx) (by simpa using hy)
  · intro i x hx
    have := h.numbers (i + 1) x
    rw [hq] at this
    simpa using this (by simpa using hx)
  · intro x hx n hn
    exact h.counts x (by rw [hq]; simp only at hx; exact List.mem_cons_of_mem _ hx) n hn

/-- The threshold is no part of the queue's invariant. -/
theorem QueueInv.threshold {q : EventQueue} (h : QueueInv q) (k : Nat) : QueueInv { q with threshold := k } := h.congr rfl rfl

/-! ## ACK EVENTs within an act (R109) -/

/-- R108: an ACK EVENT keeps the invariant. -/
theorem QueueInv.acknowledge {q : EventQueue} (h : QueueInv q) : QueueInv q.acknowledge := by
  unfold EventQueue.acknowledge; split
  · exact h.congr rfl rfl
  · next hq => exact (h.tail hq).congr rfl rfl

theorem QueueInv.await {q : EventQueue} (h : QueueInv q) (acks : List Nat) : QueueInv (q.await acks) := by
  induction acks generalizing q with
  | nil => exact h.congr rfl rfl
  | cons n rest ih => cases n with
    | zero => exact ih h.acknowledge
    | succ n => exact h.congr rfl rfl

theorem QueueInv.passOffer {q : EventQueue} (h : QueueInv q) : QueueInv q.passOffer := by
  unfold EventQueue.passOffer; split
  · exact h
  · exact h.await _

theorem EventQueue.acknowledge_setAcks (q : EventQueue) (a : List Nat) :
    ({ q with acks := a } : EventQueue).acknowledge = { q.acknowledge with acks := a } := by
  unfold EventQueue.acknowledge; dsimp only; cases q.records <;> rfl

/-- What is awaited from here on replaces what was awaited before. -/
theorem EventQueue.await_setAcks (q : EventQueue) (a acks : List Nat) :
    ({ q with acks := a } : EventQueue).await acks = q.await acks := by
  induction acks generalizing q with
  | nil => rfl
  | cons n rest ih => cases n with
    | zero => rw [EventQueue.await, EventQueue.acknowledge_setAcks, ih]; rfl
    | succ n => rfl

/-- A notice's work passes as one offer. -/
theorem EventQueue.resume_cons (q : EventQueue) (n : Nat) (rest : List Nat) :
    q.resume (n :: rest) = q.await ((n - 1) :: rest) := q.await_setAcks _ _

theorem QueueInv.hold {q : EventQueue} (h : QueueInv q) : QueueInv q.hold := h.congr rfl rfl

theorem QueueInv.resume {q : EventQueue} (h : QueueInv q) (acks : List Nat) : QueueInv (q.resume acks) :=
  QueueInv.passOffer (q := { q with acks := acks }) (h.congr rfl rfl)

theorem QueueInv.endAct {q : EventQueue} (h : QueueInv q) : QueueInv q.endAct := by
  unfold EventQueue.endAct
  generalize q.acks = acks
  have : ∀ r : EventQueue, QueueInv r → QueueInv (acks.foldl (fun r _ => r.acknowledge) r) := by
    induction acks with
    | nil => exact fun _ h => h
    | cons _ rest ih => exact fun r hr => ih _ hr.acknowledge
  exact this _ (h.congr rfl rfl)

/-- An offer keeps the invariant. -/
theorem QueueInv.offer {q : EventQueue} (h : QueueInv q) (body : RecordBody) (hb : ∀ n, body ≠ .overrun n) :
    QueueInv (q.offer body) := (h.enqueue body hb).passOffer

theorem EventQueue.acknowledge_threshold (q : EventQueue) : q.acknowledge.threshold = q.threshold := by
  unfold EventQueue.acknowledge; split <;> rfl

theorem EventQueue.acknowledge_acks (q : EventQueue) : q.acknowledge.acks = q.acks := by
  unfold EventQueue.acknowledge; split <;> rfl

theorem EventQueue.await_threshold (q : EventQueue) (acks : List Nat) : (q.await acks).threshold = q.threshold := by
  induction acks generalizing q with
  | nil => rfl
  | cons n rest ih => cases n with
    | zero => exact (ih _).trans q.acknowledge_threshold
    | succ n => rfl

theorem EventQueue.passOffer_threshold (q : EventQueue) : q.passOffer.threshold = q.threshold := by
  unfold EventQueue.passOffer; split
  · rfl
  · exact q.await_threshold _

@[simp] theorem EventQueue.hold_threshold (q : EventQueue) : q.hold.threshold = q.threshold := rfl

@[simp] theorem EventQueue.hold_acks (q : EventQueue) : q.hold.acks = [] := rfl

theorem EventQueue.hold_eq_self {q : EventQueue} (h : q.acks = []) : q.hold = q := by
  cases q; cases h; rfl

theorem EventQueue.resume_threshold (q : EventQueue) (acks : List Nat) : (q.resume acks).threshold = q.threshold :=
  EventQueue.passOffer_threshold _

/-- A notice's work in an act that awaits no ACK EVENT. -/
theorem EventQueue.resume_nil {q : EventQueue} (h : q.acks = []) : q.resume [] = q := by
  cases q; cases h; rfl

theorem EventQueue.endAct_threshold (q : EventQueue) : q.endAct.threshold = q.threshold := by
  unfold EventQueue.endAct
  generalize q.acks = acks
  have : ∀ r : EventQueue, (acks.foldl (fun r _ => r.acknowledge) r).threshold = r.threshold := by
    induction acks with
    | nil => exact fun _ => rfl
    | cons _ rest ih => exact fun r => (ih _).trans r.acknowledge_threshold
  exact this _

/-- R109: no ACK EVENT is awaited once an act has ended. -/
theorem EventQueue.endAct_acks (q : EventQueue) : q.endAct.acks = [] := by
  unfold EventQueue.endAct
  generalize q.acks = acks
  have : ∀ r : EventQueue, (acks.foldl (fun r _ => r.acknowledge) r).acks = r.acks := by
    induction acks with
    | nil => exact fun _ => rfl
    | cons _ rest ih => exact fun r => (ih _).trans r.acknowledge_acks
  exact this _

theorem EventQueue.enqueue_acks (q : EventQueue) (body : RecordBody) : (q.enqueue body).acks = q.acks := by
  unfold EventQueue.enqueue; split <;> (try split) <;> rfl

/-- Where no ACK EVENT is awaited, an offer is the append rule alone. -/
theorem EventQueue.offer_eq_enqueue {q : EventQueue} (h : q.acks = []) (body : RecordBody) : q.offer body = q.enqueue body := by
  unfold EventQueue.offer EventQueue.passOffer
  rw [q.enqueue_acks, h]

/-- An offer awaits no ACK EVENT that was not awaited before it. -/
theorem EventQueue.offer_acks {q : EventQueue} (h : q.acks = []) (body : RecordBody) : (q.offer body).acks = [] := by
  rw [offer_eq_enqueue h, enqueue_acks, h]

/-- An empty queue. -/
theorem QueueInv.empty (n : Word) (k : Nat) (a : List Nat) (x : CmdResult) :
    QueueInv { records := [], seq := n, threshold := k, acks := a, ackAnswer := x } := by
  constructor
  · simp
  · intro h; simp at h
  · intro i r r' h; simp at h
  · intro i r h; simp at h
  · intro r h; simp at h

/-! ## The operations that offer -/

/-- `q'` is `q` after some offers of records other than OVERRUN, those of one anchor notice together or each on its own, which is
all any operation but ACK EVENT, a reset and a QTHR write does to the queue (R100, R126). -/
inductive EventQueue.Offered : EventQueue → EventQueue → Prop where
  | refl (q : EventQueue) : EventQueue.Offered q q
  | offer {q q' : EventQueue} (body : RecordBody) (h : EventQueue.Offered q q') (hb : ∀ n, body ≠ .overrun n) :
      EventQueue.Offered q (q'.offer body)
  | notice {q q' q'' : EventQueue} (h : EventQueue.Offered q q') (h' : EventQueue.Offered q'.hold q'') :
      EventQueue.Offered q (q''.resume q'.acks)

open EventQueue

theorem EventQueue.Offered.trans {q q' q'' : EventQueue} (h : Offered q q') (h' : Offered q' q'') : Offered q q'' := by
  induction h' with
  | refl => exact h
  | offer body _ hb ih => exact .offer body (ih h) hb
  | notice _ h' ih _ => exact .notice (ih h) h'

theorem EventQueue.Offered.inv {q q' : EventQueue} (h : Offered q q') (hq : QueueInv q) : QueueInv q' := by
  induction h with
  | refl => exact hq
  | offer body _ hb ih => exact (ih hq).offer body hb
  | notice _ _ ih ih' => exact (ih' (ih hq).hold).resume _

theorem EventQueue.offer_threshold (q : EventQueue) (body : RecordBody) : (q.offer body).threshold = q.threshold := by
  unfold EventQueue.offer
  rw [passOffer_threshold]
  unfold EventQueue.enqueue; split <;> (try split) <;> rfl

/-- What only offers leaves no ACK EVENT awaited where none was. -/
theorem EventQueue.Offered.acks {q q' : EventQueue} (h : Offered q q') (hq : q.acks = []) : q'.acks = [] := by
  induction h with
  | refl => exact hq
  | offer body _ _ ih => exact offer_acks (ih hq) body
  | notice _ _ ih ih' => rw [ih hq, resume_nil (ih' rfl)]; exact ih' rfl

theorem EventQueue.Offered.threshold {q q' : EventQueue} (h : Offered q q') : q'.threshold = q.threshold := by
  induction h with
  | refl => rfl
  | offer body _ _ ih => rw [EventQueue.offer_threshold, ih]
  | notice _ _ ih ih' => rw [EventQueue.resume_threshold, ih', EventQueue.hold_threshold, ih]

variable (s : State)

@[simp] theorem State.offer_queue (body : RecordBody) : (s.offer body).queue = s.queue.offer body := by
  unfold State.offer; split <;> simp [State.flagOverrun]

/-- R105: an offer writes the queue and, when it is dropped, the OVERRUN flag; everything else stays. -/
theorem State.offer_eq (body : RecordBody) : s.offer body =
    { s with
      queue := s.queue.offer body
      interrupt := { s.interrupt with flags := { s.interrupt.flags with
        overrun := s.interrupt.flags.overrun || decide (31 ≤ s.queue.records.length) } } } := by
  unfold State.offer EventQueue.drops
  by_cases h : 31 ≤ s.queue.records.length
  · simp [Config.dropThreshold, h, State.flagOverrun, State.setFlags, State.setInterrupt, State.setQueue]
  · simp [Config.dropThreshold, h, State.setQueue]

/-- One offer. -/
theorem State.offer_offered (body : RecordBody) (hb : ∀ n, body ≠ .overrun n) : Offered s.queue (s.offer body).queue := by
  rw [State.offer_queue]; exact .offer body (.refl _) hb

theorem State.takeCommit_offered (n : Time) : Offered s.queue (s.takeCommit n).queue := by
  unfold State.takeCommit; split
  · simpa [State.flagCommit] using State.offer_offered (s.setSchedule s.schedule.exchange) _ (by intro m h; cases h)
  · exact .refl _

theorem State.miss_offered (i : Nat) (n : Time) (r : MissedReason) : Offered s.queue (s.miss i n r).queue := by
  simpa [State.miss, State.flagMissed] using State.offer_offered s _ (by intro m h; cases h)

theorem State.armLater_offered (x : ArmedAction) : Offered s.queue (s.armLater x).queue := by
  unfold State.armLater; split
  · exact s.miss_offered _ _ _
  · simpa [State.arm] using Offered.refl s.queue

theorem State.armLate_offered (x : ArmedAction) : Offered s.queue (s.armLate x).queue := by
  unfold State.armLate State.executeLate State.countLate State.arm; split
  · exact s.miss_offered _ _ _
  · split
    · split
      · simpa using Offered.refl s.queue
      · split
        · exact s.miss_offered _ _ _
        · simpa using Offered.refl s.queue
    · simpa using Offered.refl s.queue

theorem State.armEntry_offered (n : Notice) (i : Nat) (e : Entry) : Offered s.queue (s.armEntry n i e).queue := by
  unfold State.armEntry; split
  · split
    · exact s.miss_offered _ _ _
    · dsimp only; split
      · exact s.armLate_offered _
      · exact s.armLater_offered _
  · exact .refl _

theorem State.armEntries_offered (n : Notice) (i : Nat) (es : List Entry) :
    Offered s.queue (s.armEntries n i es).queue := by
  induction es generalizing s i with
  | nil => exact .refl _
  | cons e rest ih => exact (s.armEntry_offered n i e).trans (ih _ _)

theorem State.workNotice_offered (n : Notice) : Offered s.queue (s.workNotice n).queue :=
  (s.takeCommit_offered n.index).trans (State.armEntries_offered _ _ _ _)

theorem State.takeNotice_offered (n : Notice) : Offered s.queue (s.takeNotice n).queue :=
  .notice (.refl _) ((s.setQueue s.queue.hold).workNotice_offered n)

/-- In an act that awaits no ACK EVENT a notice is its two steps. -/
theorem State.takeNotice_eq_work (h : s.queue.acks = []) (n : Notice) : s.takeNotice n = s.workNotice n := by
  unfold State.takeNotice State.setQueue
  dsimp only
  rw [EventQueue.hold_eq_self h, h, EventQueue.resume_nil ((s.workNotice_offered n).acks h)]

theorem VoteResult.record_ne_overrun (r : VoteResult) (f : Findings) (n : Word) : r.record f ≠ .overrun n := nofun

theorem State.trackAnchor_offered (r : VoteResult) (t : Time) : Offered s.queue (s.trackAnchor r t).queue := by
  unfold State.trackAnchor State.flagLimit; dsimp only
  refine Offered.trans ?_ (State.takeNotice_offered _ _)
  refine Offered.trans ?_ (State.offer_offered _ _ (r.record_ne_overrun _))
  split <;> simpa using Offered.refl s.queue

theorem State.track_offered (r : VoteResult) : Offered s.queue (s.track r).queue := by
  unfold State.track State.trackOutOfOrder
  split <;> (try split) <;>
    first
    | exact s.trackAnchor_offered _ _
    | exact State.offer_offered s _ (r.record_ne_overrun _)
    | simpa using State.offer_offered s _ (r.record_ne_overrun _)

theorem State.expireStall_offered : Offered s.queue s.expireStall.queue := by
  simpa [State.expireStall, State.flagStall] using State.offer_offered s _ (by intro m h; cases h)

theorem State.reportLane_offered (f : LaneFields) : Offered s.queue (s.reportLane f).queue := by
  simpa [State.reportLane, State.flagLane] using State.offer_offered s _ (by intro m h; cases h)

theorem State.reportAssessed_offered (n : Word) (old : LaneState) (lane : Lane) :
    Offered s.queue (s.reportAssessed n old lane).queue := by
  unfold State.reportAssessed; dsimp only; split
  · exact .refl _
  · exact s.reportLane_offered _

theorem State.assess_offered (r : VoteResult) : Offered s.queue (s.assess r).queue := by
  unfold State.assess; dsimp only
  refine Offered.trans ?_ (State.reportAssessed_offered _ _ _ _)
  refine Offered.trans ?_ (State.reportAssessed_offered _ _ _ _)
  simpa using State.reportAssessed_offered (s.setHealth (assessLanes s.healthConfig r.assessments s.health)) r.seq
    (s.health.map HealthRecord.state).a .a

theorem State.handOn_offered (r : VoteResult) : Offered s.queue (s.handOn r).queue := by
  have h := State.assess_offered (s.countVote r) r
  rw [State.countVote_queue] at h
  exact h.trans (State.track_offered _ _)

theorem State.closeGroup_offered (r : CloseReason) (g : OpenGroup) : Offered s.queue (s.closeGroup r g).queue := by
  unfold State.closeGroup; dsimp only
  simpa only [State.takeNumber_queue] using State.handOn_offered (s.takeNumber r) _

theorem State.closeGroups_offered (r : CloseReason) (gs : List OpenGroup) : Offered s.queue (s.closeGroups r gs).queue := by
  induction gs generalizing s with
  | nil => exact .refl _
  | cons g rest ih => exact (s.closeGroup_offered r g).trans (ih _)

/-- A close after the open groups have been replaced. -/
theorem State.setGroups_closeGroup_offered (gs : List OpenGroup) (r : CloseReason) (g : OpenGroup) :
    Offered s.queue ((s.setGroups gs).closeGroup r g).queue := by
  have h := State.closeGroup_offered (s.setGroups gs) r g
  rwa [State.setGroups_queue] at h

theorem State.setGroups_closeGroups_offered (gs : List OpenGroup) (r : CloseReason) (l : List OpenGroup) :
    Offered s.queue ((s.setGroups gs).closeGroups r l).queue := by
  have h := State.closeGroups_offered (s.setGroups gs) r l
  rwa [State.setGroups_queue] at h

theorem State.settlePlaced_offered (l : List OpenGroup) (g : OpenGroup) (r : List OpenGroup) :
    Offered s.queue (s.settlePlaced l g r).queue := by
  unfold State.settlePlaced; split
  · exact s.setGroups_closeGroup_offered _ _ _
  · rw [State.setGroups_queue]; exact .refl _

theorem State.makeRoom_offered : Offered s.queue s.makeRoom.queue := by
  unfold State.makeRoom; split
  · exact .refl _
  · split
    · exact s.setGroups_closeGroup_offered _ _ _
    · exact .refl _

theorem State.openGroup_offered (lane : Lane) (t : Time) : Offered s.queue (s.openGroup lane t).queue :=
  s.makeRoom_offered.trans (State.settlePlaced_offered _ _ _ _)

theorem State.takeArrival_offered (lane : Lane) (t : Time) : Offered s.queue (s.takeArrival lane t).queue := by
  unfold State.takeArrival; split
  · exact State.settlePlaced_offered _ _ _ _
  · exact s.openGroup_offered _ _

theorem State.closeComplete_offered : Offered s.queue s.closeComplete.queue := s.setGroups_closeGroups_offered _ _ _

theorem State.expireGroup_offered (k : Nat) (g : OpenGroup) : Offered s.queue (s.expireGroup k g).queue :=
  s.setGroups_closeGroup_offered _ _ _

theorem State.acceptEdge_offered (lane : Lane) (t : Time) : Offered s.queue (s.acceptEdge lane t).queue := by
  unfold State.acceptEdge
  refine Offered.trans ?_ (State.takeArrival_offered _ _ _)
  rw [State.countLane_queue, State.updateFrontEnd_queue]; exact .refl _

theorem State.confirmEdge_offered (lane : Lane) (level : Bool) (t : Time) :
    Offered s.queue (s.confirmEdge lane level t).queue := by
  unfold State.confirmEdge; dsimp only; split
  · split
    · rw [State.countLane_queue]; exact .refl _
    · exact s.acceptEdge_offered _ _
  · exact .refl _

theorem State.takeSample_offered (lane : Lane) (level : Bool) : Offered s.queue (s.takeSample lane level).queue := by
  unfold State.takeSample; dsimp only; split
  · rw [State.updateFrontEnd_queue]; exact .refl _
  · rw [State.countLane_queue, State.updateFrontEnd_queue]; exact .refl _
  · refine Offered.trans ?_ (State.confirmEdge_offered _ _ _ _)
    rw [State.updateFrontEnd_queue]; exact .refl _

theorem State.commandLane_offered (lane : Lane) (new : LaneState) (c : LaneCause) :
    Offered s.queue (s.commandLane lane new c).queue := by
  unfold State.commandLane
  refine Offered.trans ?_ (State.reportLane_offered _ _)
  simpa [State.setLaneHealth] using Offered.refl s.queue

theorem State.enableLane_offered (lane : Lane) : Offered s.queue (s.enableLane lane).queue := by
  unfold State.enableLane
  refine Offered.trans ?_ (State.commandLane_offered _ _ _ _)
  simpa [State.setLaneEnable] using Offered.refl s.queue

theorem State.disableLane_offered (lane : Lane) : Offered s.queue (s.disableLane lane).queue := by
  unfold State.disableLane
  refine Offered.trans ?_ (State.closeComplete_offered _)
  refine Offered.trans ?_ (State.commandLane_offered _ _ _ _)
  simpa [State.setLaneEnable] using Offered.refl s.queue

theorem State.startRun_offered : Offered s.queue s.startRun.queue := by
  unfold State.startRun; dsimp only
  rw [State.setCommand_queue]
  refine Offered.trans ?_ (State.offer_offered _ _ nofun)
  simpa using Offered.refl s.queue

theorem State.stopRun_offered : Offered s.queue s.stopRun.queue := by
  unfold State.stopRun State.stopGroups State.safeLatches State.stopFrontEnds; dsimp only
  rw [State.setCommand_queue]
  refine Offered.trans ?_ (State.offer_offered _ _ nofun)
  simpa using s.setGroups_closeGroups_offered [] .stopped s.table.groups

theorem State.writeStallto_offered (v : Time) : Offered s.queue (s.writeStallto v).queue := by
  unfold State.writeStallto State.busValue; dsimp only; split
  · split
    · split
      · refine Offered.trans ?_ (State.expireStall_offered _)
        rw [State.setLimits_queue]; exact .refl _
      · rw [State.setLimits_queue]; exact .refl _
    · rw [State.setBusStatus_queue]; exact .refl _
  · rw [State.setLimits_queue]; exact .refl _

theorem State.writePair_offered (p : WritablePair) (v : Time) : Offered s.queue (s.writePair p v).queue := by
  cases p
  · unfold State.writePair State.writePmin State.busValue; dsimp only; split
    · split <;> simpa using Offered.refl s.queue
    · simpa using Offered.refl s.queue
  · unfold State.writePair State.writePmax State.busValue; dsimp only; split
    · split <;> simpa using Offered.refl s.queue
    · simpa using Offered.refl s.queue
  · exact s.writeStallto_offered v

end Sys2Proof.Machine
end

