-- ==== Sys2Proof/Laws/Acknowledge.lean ====
section
/-! SUPPORT. ACK EVENTs within an act (R109): what the act does to the queue, and what its beginning and its end leave unchanged. -/

namespace Sys2Proof.Machine

open EventQueue

variable (s : State)

/-- An act begins by a change of the queue alone. -/
theorem State.awaitAcks_eq (acks : List Nat) : s.awaitAcks acks = { s with queue := s.queue.await acks } := rfl

/-- An act ends by a change of the queue and of CMDRES alone. -/
theorem State.endAct_eq : s.endAct =
    { s with
      queue := { s.queue.endAct with ackAnswer := .none }
      command := { s.command with code := 0x0B, result := s.queue.endAct.ackAnswer, startError := 0 } } := rfl

/-- R100: the act of an event does nothing to the queue but offers. -/
theorem State.act_offered (e : TickEvent) : Offered s.queue (s.act e).queue := by
  cases e with
  | sample lane level =>
    simp only [State.act, State.sampleLane]
    split
    · exact s.takeSample_offered lane level
    · exact .refl _
  | arrival lane stamp =>
    simp only [State.act, State.arrive]
    split
    · exact s.takeArrival_offered lane stamp
    · exact .refl _
  | groupExpiry rank =>
    simp only [State.act, State.expireRank]
    split
    · split
      · exact s.expireGroup_offered rank _
      · exact .refl _
    · exact .refl _

/-- R109: no ACK EVENT is awaited once the act has ended. -/
theorem State.actWithAcks_acks (place : AckPlace) : (s.actWithAcks place).queue.acks = [] :=
  ((s.awaitAcks (place.after :: place.further)).act place.event).queue.endAct_acks

/-- R105, R108, R109: an act with ACK EVENTs within it keeps the queue's invariant. -/
theorem State.actWithAcks_inv {s : State} (h : QueueInv s.queue) (place : AckPlace) : QueueInv (s.actWithAcks place).queue :=
  (((s.awaitAcks _).act_offered place.event).inv (h.await _)).endAct.congr rfl rfl

end Sys2Proof.Machine
end

