-- ==== Sys2Proof/Laws/Lanes.lean ====
section
/-! SUPPORT. The lemmas of the three-lane and four-line records: what a lane or a line reads after an update. -/

namespace Sys2Proof.Machine

variable {α β : Type}

theorem Lanes.get_set (v : Lanes α) (l m : Lane) (x : α) : (v.set l x).get m = if m = l then x else v.get m := by
  cases l <;> cases m <;> rfl

@[simp] theorem Lanes.get_set_same (v : Lanes α) (l : Lane) (x : α) : (v.set l x).get l = x := by cases l <;> rfl

theorem Lanes.get_set_other (v : Lanes α) {l m : Lane} (x : α) (h : m ≠ l) : (v.set l x).get m = v.get m := by
  rw [Lanes.get_set, if_neg h]

@[simp] theorem Lanes.get_build (f : Lane → α) (l : Lane) : (Lanes.build f).get l = f l := by cases l <;> rfl

@[simp] theorem Lanes.get_map (f : α → β) (v : Lanes α) (l : Lane) : (v.map f).get l = f (v.get l) := by
  simp [Lanes.map]

theorem Lanes.get_update (v : Lanes α) (l m : Lane) (f : α → α) :
    (v.update l f).get m = if m = l then f (v.get l) else v.get m := by rw [Lanes.update, Lanes.get_set]

theorem Lanes.ext {v w : Lanes α} (h : ∀ l, v.get l = w.get l) : v = w := by
  have ha := h .a; have hb := h .b; have hc := h .c
  cases v; cases w; simp_all [Lanes.get]

theorem Lines.get_set (v : Lines α) (l m : Line) (x : α) : (v.set l x).get m = if m = l then x else v.get m := by
  cases l <;> cases m <;> rfl

@[simp] theorem Lines.get_build (f : Line → α) (l : Line) : (Lines.build f).get l = f l := by cases l <;> rfl

theorem Lanes.set_set (v : Lanes α) (l : Lane) (x y : α) : (v.set l x).set l y = v.set l y := by cases l <;> rfl

theorem Lines.set_set (v : Lines α) (l : Line) (x y : α) : (v.set l x).set l y = v.set l y := by cases l <;> rfl

@[simp] theorem Lines.get_set_same (v : Lines α) (l : Line) (x : α) : (v.set l x).get l = x := by cases l <;> rfl

theorem Lane.any_iff (p : Lane → Bool) : Lane.any p = true ↔ ∃ l, p l = true := by
  constructor
  · intro h
    simp only [Lane.any, Bool.or_eq_true] at h
    rcases h with (h | h) | h
    · exact ⟨_, h⟩
    · exact ⟨_, h⟩
    · exact ⟨_, h⟩
  · rintro ⟨l, h⟩; cases l <;> simp [Lane.any, h]

theorem Lane.every_iff (p : Lane → Bool) : Lane.every p = true ↔ ∀ l, p l = true := by
  constructor
  · intro h l
    simp only [Lane.every, Bool.and_eq_true] at h
    cases l
    · exact h.1.1
    · exact h.1.2
    · exact h.2
  · intro h; simp [Lane.every, h]

end Sys2Proof.Machine
end

