-- ==== Sys2Proof/Laws/Close.lean ====
section
/-! SUPPORT. What the act of closing a group does to each block it reaches: the group table takes one number, the health monitor
makes one assessment, the tracker stays or takes one anchor, and the banks stay or are exchanged. -/

namespace Sys2Proof.Machine

variable (s : State)

/-! ## The group table -/

@[simp] theorem State.closeGroup_table (r : CloseReason) (g : OpenGroup) :
    (s.closeGroup r g).table = { s.table with seq := s.table.seq + 1 } := by
  simp [State.closeGroup, State.takeNumber, State.count]

theorem State.closeGroups_table (r : CloseReason) (gs : List OpenGroup) :
    (s.closeGroups r gs).table = { s.table with seq := s.table.seq + BitVec.ofNat 16 gs.length } := by
  induction gs generalizing s with
  | nil => simp [State.closeGroups]
  | cons g rest ih =>
    simp only [State.closeGroups, ih, State.closeGroup_table, List.length_cons, BitVec.ofNat_add]
    congr 1
    rw [BitVec.add_assoc, BitVec.add_comm 1]; rfl

@[simp] theorem State.setGroups_table (gs : List OpenGroup) : (s.setGroups gs).table = { s.table with groups := gs } := rfl

/-! ## The health monitor -/

@[simp] theorem State.assess_health (r : VoteResult) :
    (s.assess r).health = assessLanes s.healthConfig r.assessments s.health := by simp [State.assess]

/-- The assessments a group's closing makes. -/
def State.closeAssessments (s : State) (r : CloseReason) (g : OpenGroup) : Lanes Assessment :=
  (s.voteOn { seq := s.table.seq, reason := r, reference := g.reference, members := g.members }).assessments

@[simp] theorem State.closeGroup_health (r : CloseReason) (g : OpenGroup) :
    (s.closeGroup r g).health = assessLanes s.healthConfig (s.closeAssessments r g) s.health := by
  simp [State.closeGroup, State.handOn, State.closeAssessments]

/-- `hs'` is `hs` after some assessments under one health configuration. -/
inductive Assessed (c : HealthConfig) : Lanes HealthRecord → Lanes HealthRecord → Prop where
  | refl (hs : Lanes HealthRecord) : Assessed c hs hs
  | assess {hs hs' : Lanes HealthRecord} (as : Lanes Assessment) (h : Assessed c hs hs') :
      Assessed c hs (assessLanes c as hs')

theorem Assessed.trans {c : HealthConfig} {a b d : Lanes HealthRecord} (h : Assessed c a b) (h' : Assessed c b d) :
    Assessed c a d := by
  induction h' with
  | refl => exact h
  | assess as _ ih => exact .assess as ih

/-- The whole of what a series of closes does to the health records. -/
theorem State.closeGroup_assessed (r : CloseReason) (g : OpenGroup) :
    Assessed s.healthConfig s.health (s.closeGroup r g).health := by
  rw [State.closeGroup_health]; exact .assess _ (.refl _)

theorem State.closeGroups_assessed (r : CloseReason) (gs : List OpenGroup) :
    Assessed s.healthConfig s.health (s.closeGroups r gs).health := by
  induction gs generalizing s with
  | nil => exact .refl _
  | cons g rest ih =>
    have h := ih (s.closeGroup r g)
    rw [State.closeGroup_healthConfig] at h
    exact (s.closeGroup_assessed r g).trans h

theorem State.settlePlaced_assessed (l : List OpenGroup) (g : OpenGroup) (r : List OpenGroup) :
    Assessed s.healthConfig s.health (s.settlePlaced l g r).health := by
  unfold State.settlePlaced; split
  · have h := State.closeGroup_assessed (s.setGroups (l ++ r)) .complete g
    simpa only [State.setGroups_healthConfig, State.setGroups_health] using h
  · rw [State.setGroups_health]; exact .refl _

theorem State.makeRoom_assessed : Assessed s.healthConfig s.health s.makeRoom.health := by
  unfold State.makeRoom; split
  · exact .refl _
  · split
    · next oldest rest _ _ =>
      have h := State.closeGroup_assessed (s.setGroups rest) .evicted oldest
      simpa only [State.setGroups_healthConfig, State.setGroups_health] using h
    · exact .refl _

theorem State.takeArrival_assessed (lane : Lane) (t : Time) :
    Assessed s.healthConfig s.health (s.takeArrival lane t).health := by
  unfold State.takeArrival; split
  · exact s.settlePlaced_assessed _ _ _
  · have h := State.settlePlaced_assessed s.makeRoom s.makeRoom.table.groups (s.makeRoom.table.opened lane t) []
    rw [State.makeRoom_healthConfig] at h
    exact s.makeRoom_assessed.trans h

theorem State.closeComplete_assessed : Assessed s.healthConfig s.health s.closeComplete.health := by
  have h := State.closeGroups_assessed
    (s.setGroups (s.table.groups.filter fun g => !g.complete s.laneStates)) .complete
    (s.table.groups.filter fun g => g.complete s.laneStates)
  simp only [State.setGroups_healthConfig, State.setGroups_health] at h; exact h

theorem State.expireGroup_assessed (k : Nat) (g : OpenGroup) :
    Assessed s.healthConfig s.health (s.expireGroup k g).health := by
  have h := State.closeGroup_assessed (s.setGroups (s.table.groups.eraseIdx (k - 1))) .expired g
  simp only [State.setGroups_healthConfig, State.setGroups_health] at h; exact h

/-! ## The tracker -/

@[simp] theorem State.trackAnchor_tracker (r : VoteResult) (v : Time) :
    (s.trackAnchor r v).tracker = s.tracker.anchor s.limits v := by
  unfold State.trackAnchor State.flagLimit; dsimp only; split <;> simp

/-- The tracker after one vote result. -/
theorem State.track_tracker (r : VoteResult) :
    (s.track r).tracker = s.tracker ∨ ∃ v, r.votedTime = some v ∧ s.tracker.outOfOrder v = false ∧ r.reason ≠ .stopped ∧
      (s.track r).tracker = s.tracker.anchor s.limits v := by
  unfold State.track State.trackOutOfOrder
  split <;> (try split) <;> (try (left; simp; done))
  all_goals
    next v hr hv ho =>
    right
    exact ⟨v, hv, by simpa using ho, by rw [hr]; exact nofun, State.trackAnchor_tracker s r v⟩

/-- `t'` is `t` after some anchors under one pair of limits. -/
inductive Anchored (l : Limits) : Tracker → Tracker → Prop where
  | refl (t : Tracker) : Anchored l t t
  | anchor {t t' : Tracker} (v : Time) (h : Anchored l t t') : Anchored l t (t'.anchor l v)

theorem Anchored.trans {l : Limits} {a b d : Tracker} (h : Anchored l a b) (h' : Anchored l b d) : Anchored l a d := by
  induction h' with
  | refl => exact h
  | anchor v _ ih => exact .anchor v ih

theorem State.closeGroup_anchored (r : CloseReason) (g : OpenGroup) : Anchored s.limits s.tracker (s.closeGroup r g).tracker := by
  unfold State.closeGroup State.handOn; dsimp only
  generalize hr : s.voteOn _ = res
  have h := State.track_tracker (((s.takeNumber r).countVote res).assess res) res
  simp only [State.assess_tracker, State.countVote_tracker, State.takeNumber_tracker, State.assess_limits,
    State.countVote_limits, State.takeNumber_limits] at h
  rcases h with h | ⟨v, _, _, _, h⟩ <;> rw [h]
  · exact .refl _
  · exact .anchor v (.refl _)

theorem State.closeGroups_anchored (r : CloseReason) (gs : List OpenGroup) :
    Anchored s.limits s.tracker (s.closeGroups r gs).tracker := by
  induction gs generalizing s with
  | nil => exact .refl _
  | cons g rest ih =>
    have h := ih (s.closeGroup r g)
    rw [State.closeGroup_limits] at h
    exact (s.closeGroup_anchored r g).trans h

theorem State.settlePlaced_anchored (l : List OpenGroup) (g : OpenGroup) (r : List OpenGroup) :
    Anchored s.limits s.tracker (s.settlePlaced l g r).tracker := by
  unfold State.settlePlaced; split
  · have h := State.closeGroup_anchored (s.setGroups (l ++ r)) .complete g
    simpa only [State.setGroups_limits, State.setGroups_tracker] using h
  · rw [State.setGroups_tracker]; exact .refl _

theorem State.makeRoom_anchored : Anchored s.limits s.tracker s.makeRoom.tracker := by
  unfold State.makeRoom; split
  · exact .refl _
  · split
    · next oldest rest _ _ =>
      have h := State.closeGroup_anchored (s.setGroups rest) .evicted oldest
      simpa only [State.setGroups_limits, State.setGroups_tracker] using h
    · exact .refl _

theorem State.takeArrival_anchored (lane : Lane) (t : Time) : Anchored s.limits s.tracker (s.takeArrival lane t).tracker := by
  unfold State.takeArrival; split
  · exact s.settlePlaced_anchored _ _ _
  · have h := State.settlePlaced_anchored s.makeRoom s.makeRoom.table.groups (s.makeRoom.table.opened lane t) []
    rw [State.makeRoom_limits] at h
    exact s.makeRoom_anchored.trans h

theorem State.closeComplete_anchored : Anchored s.limits s.tracker s.closeComplete.tracker := by
  have h := State.closeGroups_anchored
    (s.setGroups (s.table.groups.filter fun g => !g.complete s.laneStates)) .complete
    (s.table.groups.filter fun g => g.complete s.laneStates)
  simp only [State.setGroups_limits, State.setGroups_tracker] at h; exact h

theorem State.expireGroup_anchored (k : Nat) (g : OpenGroup) : Anchored s.limits s.tracker (s.expireGroup k g).tracker := by
  have h := State.closeGroup_anchored (s.setGroups (s.table.groups.eraseIdx (k - 1))) .expired g
  simp only [State.setGroups_limits, State.setGroups_tracker] at h; exact h

end Sys2Proof.Machine
end

