-- ==== Sys2Proof/Laws/Health.lean ====
section
/-! SUPPORT. The two passes of an assessment: each keeps the health records in their ranges, and together they keep a voter. -/

namespace Sys2Proof.Machine

/-- What the two passes need of the health configuration (R63 to R65). -/
structure HealthConfigInv (c : HealthConfig) : Prop where
  suspect : 1 ≤ c.suspect
  exclude : 1 ≤ c.exclude
  probation : 1 ≤ c.probation
  readmit : 1 ≤ c.readmit

/-- What pass 1 keeps of a health record: all of it but the tie of the mark to Te. -/
structure PassOneInv (c : HealthConfig) (h : HealthRecord) : Prop where
  score : h.score ≤ 63
  goodRun : h.goodRun ≤ 255
  atRest : h.state = .idle ∨ h.state = .off → h.score = 0 ∧ h.goodRun = 0 ∧ h.mark = false
  voting : h.state.votes = true → h.goodRun = 0
  active : h.state = .active → h.score < c.suspect
  suspect : h.state = .suspect → 1 ≤ h.score
  probation : h.state = .probation → h.score = 0 ∧ h.goodRun < c.probation
  excluded : h.state = .excluded → c.autoReadmit = true → h.goodRun < c.readmit
  mark : h.mark = true → h.state.votes = true

theorem HealthRecordInv.passOneInv {c : HealthConfig} {h : HealthRecord} (i : HealthRecordInv c h) : PassOneInv c h :=
  ⟨i.score, i.goodRun, i.atRest, i.voting, i.active, i.suspect, i.probation, i.excluded, fun m => by
    have := i.mark m; simp only [HealthRecord.overLimit, Bool.and_eq_true] at this; exact this.1⟩

theorem PassOneInv.fresh {c : HealthConfig} (hc : HealthConfigInv c) {st : LaneState} (hst : st ≠ .suspect) :
    PassOneInv c (.fresh st) := by
  have := hc.suspect; have := hc.probation; have := hc.readmit
  constructor <;> simp_all [HealthRecord.fresh] <;> omega

theorem scoreAfter_le {c : HealthConfig} {n : Nat} (h : n ≤ 63) (a : Assessment) : scoreAfter c n a ≤ 63 := by
  cases a <;> simp only [scoreAfter, Config.maxScore] <;> omega

theorem passOne_inv {c : HealthConfig} (hc : HealthConfigInv c) {h : HealthRecord} (i : PassOneInv c h) (a : Assessment) :
    PassOneInv c (passOne c a h) := by
  obtain ⟨st, n, run, mark⟩ := h
  have hs := hc.suspect; have hp := hc.probation; have hr := hc.readmit
  have i1 := i.score; have i2 := i.goodRun
  simp only at i1 i2
  have key := scoreAfter_le (c := c) i1 a
  cases st
  · exact i
  · exact i
  · have iv := i.voting rfl; simp only at iv
    have ia := i.active rfl; simp only at ia
    simp only [passOne, passOneVoting]
    split
    · exact i
    · simp only [votingStateAfter]
      split
      · next hle => constructor <;> simp_all [LaneState.votes] <;> omega
      · next hle => constructor <;> simp_all [LaneState.votes]
  · have iv := i.voting rfl; simp only at iv
    simp only [passOne, passOneVoting]
    split
    · exact i
    · simp only [votingStateAfter]
      split
      · next hle => constructor <;> simp_all [LaneState.votes] <;> omega
      · next hle => constructor <;> simp_all [LaneState.votes] <;> omega
  · have ip := i.probation rfl; simp only at ip
    have im : mark = false := by
      cases mark
      · rfl
      · have := i.mark rfl; simp [LaneState.votes] at this
    cases a <;> simp only [passOne, passOneProbation]
    · split
      · exact .fresh hc nofun
      · next hne =>
        have : min Config.maxGoodRun (run + 1) < c.probation := by
          simp only [Config.maxGoodRun] at hne ⊢; omega
        constructor <;> simp_all [LaneState.votes, Config.maxGoodRun]
    · constructor <;> simp_all [LaneState.votes] <;> omega
    · constructor <;> simp_all [LaneState.votes] <;> omega
    · exact i
  · have ie := i.excluded rfl; simp only at ie
    have im : mark = false := by
      cases mark
      · rfl
      · have := i.mark rfl; simp [LaneState.votes] at this
    cases a <;> simp only [passOne, passOneExcluded]
    · split
      · exact .fresh hc nofun
      · next hne =>
        have : c.autoReadmit = true → min Config.maxGoodRun (run + 1) < c.readmit := by
          intro ha
          simp only [ha, Bool.true_and, decide_eq_true_eq, Config.maxGoodRun] at hne ⊢
          have := ie ha; omega
        constructor <;> simp_all [LaneState.votes, Config.maxGoodRun]
    · constructor <;> simp_all [LaneState.votes] <;> omega
    · constructor <;> simp_all [LaneState.votes] <;> omega
    · exact i

/-- R60: pass 1 never removes a voting lane. -/
theorem passOne_votes {c : HealthConfig} {h : HealthRecord} (a : Assessment) (hv : h.state.votes = true) :
    (passOne c a h).state.votes = true := by
  obtain ⟨st, n, run, mark⟩ := h
  cases st <;> simp [LaneState.votes] at hv
  · simp only [passOne, passOneVoting]; split
    · rfl
    · simp only [votingStateAfter]; split <;> rfl
  · simp only [passOne, passOneVoting]; split
    · rfl
    · simp only [votingStateAfter]; split <;> rfl

/-- R25: pass 1 keeps the waiting set. -/
theorem passOne_waits (c : HealthConfig) (a : Assessment) (h : HealthRecord) :
    (passOne c a h).state.waits = h.state.waits := by
  obtain ⟨st, n, run, mark⟩ := h
  cases st <;> simp only [passOne, passOneVoting, passOneProbation, passOneExcluded, votingStateAfter] <;>
    (try cases a) <;> simp only [reduceCtorEq, if_false, if_true] <;> (try split) <;> rfl

theorem passOne_idle (c : HealthConfig) (a : Assessment) {h : HealthRecord} (hi : h.state ≠ .idle) :
    (passOne c a h).state ≠ .idle := by
  intro hidle
  have hw := passOne_waits c a h
  obtain ⟨st, n, run, mark⟩ := h
  cases st
  · exact hi rfl
  · cases hidle
  all_goals rw [hidle] at hw; cases hw

theorem passTwoLane_waits (te : Nat) (k : Option Lane) (l : Lane) (h : HealthRecord) :
    ((passTwoLane te k l h).settleMark te).state.waits = h.state.waits := by
  unfold passTwoLane HealthRecord.settleMark
  split
  · next ho =>
    split
    · rfl
    · simp only [HealthRecord.overLimit, Bool.and_eq_true] at ho
      have : h.state.waits = true := by
        cases hst : h.state <;> simp [hst, LaneState.votes] at ho ⊢ <;> rfl
      simp [HealthRecord.exclude, this]; rfl
  · rfl

/-- R25: an assessment keeps the waiting set. -/
theorem assessLanes_waits (c : HealthConfig) (as : Lanes Assessment) (hs : Lanes HealthRecord) (l : Lane) :
    ((assessLanes c as hs).get l).state.waits = (hs.get l).state.waits := by
  simp only [assessLanes, passTwo, Lanes.get_build, passTwoLane_waits, passOne_waits]

theorem Assessed.waits {c : HealthConfig} {hs hs' : Lanes HealthRecord} (h : Assessed c hs hs') (l : Lane) :
    (hs'.get l).state.waits = (hs.get l).state.waits := by
  induction h with
  | refl => rfl
  | assess as _ ih => rw [assessLanes_waits, ih]

/-! ## Pass 2 -/

theorem betterKeeper_votes {hs : Lanes HealthRecord} {kept : Option Lane}
    (h : ∀ l, kept = some l → (hs.get l).state.votes = true) (lane l : Lane) (hl : betterKeeper hs kept lane = some l) :
    (hs.get l).state.votes = true := by
  unfold betterKeeper at hl
  by_cases hv : (hs.get lane).state.votes = true
  · rw [if_pos hv] at hl
    cases kept with
    | none => cases hl; exact hv
    | some k =>
      simp only at hl
      split at hl
      · cases hl; exact hv
      · exact h _ hl
  · rw [if_neg hv] at hl; exact h _ hl

/-- R71: the kept lane is a voting lane. -/
theorem keeper_votes {hs : Lanes HealthRecord} {l : Lane} (h : keeper hs = some l) : (hs.get l).state.votes = true :=
  betterKeeper_votes (betterKeeper_votes (betterKeeper_votes (kept := none) (fun _ h => nomatch h) .a) .b) .c l h

theorem keeper_some {hs : Lanes HealthRecord} {l : Lane} (h : (hs.get l).state.votes = true) : ∃ k, keeper hs = some k := by
  simp only [keeper, Lane.all, List.foldl, betterKeeper]
  cases ha : (hs.get .a).state.votes <;> cases hb : (hs.get .b).state.votes <;> cases hc : (hs.get .c).state.votes <;>
    simp only [if_true, if_false, Bool.false_eq_true] <;>
    (repeat' split) <;> first | exact ⟨_, rfl⟩ | (cases l <;> simp_all)

/-- What a lane is after pass 2, given the lane kept. -/
theorem passTwoLane_inv {c : HealthConfig} (hc : HealthConfigInv c) {h : HealthRecord} (i : PassOneInv c h) (k : Option Lane)
    (l : Lane) : HealthRecordInv c ((passTwoLane c.exclude k l h).settleMark c.exclude) := by
  have hr := hc.readmit
  unfold passTwoLane HealthRecord.settleMark
  split
  · next ho =>
    have hv : h.state.votes = true := by
      simp only [HealthRecord.overLimit, Bool.and_eq_true] at ho; exact ho.1
    split
    · refine ⟨i.score, i.goodRun, ?_, i.voting, i.active, i.suspect, i.probation, i.excluded, ?_⟩
      · intro hst; simp only at hst
        rcases hst with hst | hst <;> simp [hst, LaneState.votes] at hv
      · intro hm
        simpa [HealthRecord.overLimit] using hm
    · have := i.score
      constructor <;> simp_all [HealthRecord.exclude, LaneState.votes, HealthRecord.overLimit] <;> omega
  · next ho =>
    refine ⟨i.score, i.goodRun, ?_, i.voting, i.active, i.suspect, i.probation, i.excluded, ?_⟩
    · intro hst
      have := i.atRest hst
      exact ⟨this.1, this.2.1, by simp [this.2.2]⟩
    · intro hm
      simp only [Bool.and_eq_true] at hm
      exact absurd hm.2 ho

/-- What a set of health records satisfies in RUN. -/
structure HealthRunInv (c : HealthConfig) (hs : Lanes HealthRecord) : Prop where
  lanes : ∀ l, HealthRecordInv c (hs.get l)
  started : ∀ l, (hs.get l).state ≠ .idle
  voter : ∃ l, (hs.get l).state.votes = true
  lastVoter : ∀ l, (hs.get l).overLimit c.exclude = true →
    (hs.get l).mark = true ∧ ∀ l', l' ≠ l → (hs.get l').state.votes = false

theorem passTwo_run {c : HealthConfig} (hc : HealthConfigInv c) {hs : Lanes HealthRecord}
    (i : ∀ l, PassOneInv c (hs.get l)) (hi : ∀ l, (hs.get l).state ≠ .idle) (hv : ∃ l, (hs.get l).state.votes = true) :
    HealthRunInv c (passTwo c.exclude hs) := by
  have hget : ∀ l, (passTwo c.exclude hs).get l =
      (passTwoLane c.exclude (keptLane c.exclude hs) l (hs.get l)).settleMark c.exclude := by
    intro l; simp [passTwo]
  have hstate : ∀ l, ((passTwo c.exclude hs).get l).state =
      if (hs.get l).overLimit c.exclude = true ∧ keptLane c.exclude hs ≠ some l then .excluded else (hs.get l).state := by
    intro l
    rw [hget]; unfold passTwoLane HealthRecord.settleMark HealthRecord.exclude
    by_cases ho : (hs.get l).overLimit c.exclude = true <;> by_cases hk : keptLane c.exclude hs = some l <;> simp [ho, hk]
  have hstay : ∀ l, ¬((hs.get l).overLimit c.exclude = true ∧ keptLane c.exclude hs ≠ some l) →
      ((passTwo c.exclude hs).get l).state = (hs.get l).state := by
    intro l h; rw [hstate, if_neg h]
  refine ⟨fun l => by rw [hget]; exact passTwoLane_inv hc (i l) _ l, ?_, ?_, ?_⟩
  · intro l; rw [hstate]; split
    · exact nofun
    · exact hi l
  · by_cases hany : Lane.any (fun l => (hs.get l).state.votes && !(hs.get l).overLimit c.exclude) = true
    · obtain ⟨l, hl⟩ := (Lane.any_iff _).mp hany
      simp only [Bool.and_eq_true, Bool.not_eq_true'] at hl
      exact ⟨l, by rw [hstay l (by simp [hl.2])]; exact hl.1⟩
    · obtain ⟨l, hl⟩ := hv
      obtain ⟨k, hk⟩ := keeper_some hl
      have hk' : keptLane c.exclude hs = some k := by simp [keptLane, hany, hk]
      exact ⟨k, by rw [hstay k (by simp [hk'])]; exact keeper_votes hk⟩
  · intro l ho
    have hl : ((passTwo c.exclude hs).get l).state.votes = true := by
      simp only [HealthRecord.overLimit, Bool.and_eq_true] at ho; exact ho.1
    have hno : ¬((hs.get l).overLimit c.exclude = true ∧ keptLane c.exclude hs ≠ some l) := by
      intro h; rw [hstate, if_pos h] at hl; simp [LaneState.votes] at hl
    have hsame : ((passTwo c.exclude hs).get l).score = (hs.get l).score := by
      rw [hget]; unfold passTwoLane HealthRecord.settleMark HealthRecord.exclude
      split
      · split <;> rfl
      · rfl
    have ho' : (hs.get l).overLimit c.exclude = true := by
      simp only [HealthRecord.overLimit, hsame, hstay l hno] at ho ⊢; exact ho
    have hk : keptLane c.exclude hs = some l := by
      by_contra hne; exact hno ⟨ho', hne⟩
    constructor
    · rw [hget]; unfold passTwoLane HealthRecord.settleMark
      rw [if_pos ho', if_pos hk]
      simp only [HealthRecord.overLimit, Bool.true_and] at ho' ⊢; exact ho'
    · intro l' hne
      have hall : ¬Lane.any (fun l => (hs.get l).state.votes && !(hs.get l).overLimit c.exclude) = true := by
        intro hany; simp [keptLane, hany] at hk
      rw [hstate]
      split
      · rfl
      · next hn =>
        by_contra hvl
        have hvl' : (hs.get l').state.votes = true := by simpa using hvl
        apply hall
        refine (Lane.any_iff _).mpr ⟨l', ?_⟩
        by_cases hol : (hs.get l').overLimit c.exclude = true
        · exfalso; apply hn
          refine ⟨hol, ?_⟩
          rw [hk]; intro h; exact hne (Option.some.inj h).symm
        · simp [hvl', hol]

/-- R59, R60, R72: an assessment keeps the records in their ranges, a voter, and last-voter protection. -/
theorem assessLanes_run {c : HealthConfig} (hc : HealthConfigInv c) {hs : Lanes HealthRecord} (i : HealthRunInv c hs)
    (as : Lanes Assessment) : HealthRunInv c (assessLanes c as hs) := by
  unfold assessLanes
  refine passTwo_run hc ?_ ?_ ?_
  · intro l; rw [Lanes.get_build]; exact passOne_inv hc (i.lanes l).passOneInv _
  · intro l; rw [Lanes.get_build]; exact passOne_idle _ _ (i.started l)
  · obtain ⟨l, hl⟩ := i.voter
    exact ⟨l, by rw [Lanes.get_build]; exact passOne_votes _ hl⟩

theorem Assessed.run {c : HealthConfig} (hc : HealthConfigInv c) {hs hs' : Lanes HealthRecord} (h : Assessed c hs hs')
    (i : HealthRunInv c hs) : HealthRunInv c hs' := by
  induction h with
  | refl => exact i
  | assess as _ ih => exact assessLanes_run hc ih as

theorem LaneState.off_iff {st : LaneState} (h : st ≠ .idle) : st = .off ↔ st.waits = false := by
  cases st <;> first | exact absurd rfl h | decide

/-- R61, R77, R78: no assessment takes a lane to OFF or out of it. -/
theorem Assessed.off {c : HealthConfig} (hc : HealthConfigInv c) {hs hs' : Lanes HealthRecord} (h : Assessed c hs hs')
    (i : HealthRunInv c hs) (l : Lane) : (hs'.get l).state = .off ↔ (hs.get l).state = .off := by
  rw [LaneState.off_iff ((h.run hc i).started l), LaneState.off_iff (i.started l), h.waits]

end Sys2Proof.Machine
end

