-- ==== Sys2Proof/Laws/Groups.lean ====
section
/-! SUPPORT. The group table: where an arrival is placed, and that placing, expiring and closing keep the open groups' invariant. -/

namespace Sys2Proof.Machine

variable (s : State)

/-! ## Candidates -/

/-- R22: `splitCandidate` finds the oldest candidate. -/
theorem splitCandidate_some {w : Nat} {lane : Lane} {t : Time} {gs before after : List OpenGroup} {g : OpenGroup}
    (h : splitCandidate w lane t gs = some (before, g, after)) :
    gs = before ++ g :: after ∧ g.candidate w lane t = true ∧ ∀ x ∈ before, x.candidate w lane t = false := by
  induction gs generalizing before with
  | nil => cases h
  | cons y rest ih =>
    unfold splitCandidate at h
    split at h
    · next hc => cases h; exact ⟨rfl, hc, by simp⟩
    · next hc =>
      cases hr : splitCandidate w lane t rest with
      | none => rw [hr] at h; cases h
      | some p =>
        obtain ⟨b', g', a'⟩ := p
        rw [hr] at h; cases h
        obtain ⟨h1, h2, h3⟩ := ih hr
        refine ⟨by rw [h1]; rfl, h2, ?_⟩
        intro x hx
        rcases List.mem_cons.mp hx with rfl | hx
        · simpa using hc
        · exact h3 x hx

/-- R22: it finds none only where there is none. -/
theorem splitCandidate_none {w : Nat} {lane : Lane} {t : Time} {gs : List OpenGroup}
    (h : splitCandidate w lane t gs = none) : ∀ x ∈ gs, x.candidate w lane t = false := by
  induction gs with
  | nil => simp
  | cons y rest ih =>
    unfold splitCandidate at h
    split at h
    · cases h
    · next hc =>
      intro x hx
      rcases List.mem_cons.mp hx with rfl | hx
      · simpa using hc
      · exact ih (by simpa using h) x hx

/-- R22: conversely, the oldest candidate is the one `splitCandidate` finds. -/
theorem splitCandidate_oldest {w : Nat} {lane : Lane} {t : Time} {before after : List OpenGroup} {g : OpenGroup}
    (hb : ∀ x ∈ before, x.candidate w lane t = false) (hg : g.candidate w lane t = true) :
    splitCandidate w lane t (before ++ g :: after) = some (before, g, after) := by
  induction before with
  | nil => simp [splitCandidate, hg]
  | cons y rest ih =>
    have hy : y.candidate w lane t = false := hb y (by simp)
    simp [splitCandidate, hy, ih fun x hx => hb x (by simp [hx])]

/-- No candidate. -/
theorem splitCandidate_absent {w : Nat} {lane : Lane} {t : Time} {gs : List OpenGroup}
    (h : ∀ x ∈ gs, x.candidate w lane t = false) : splitCandidate w lane t gs = none := by
  induction gs with
  | nil => rfl
  | cons y rest ih => simp [splitCandidate, h y (by simp), ih fun x hx => h x (by simp [hx])]

/-! ## Completion -/

/-- R25: completion looks at the waiting set only. -/
theorem OpenGroup.complete_congr (g : OpenGroup) {a b : Lanes LaneState} (h : ∀ l, (a.get l).waits = (b.get l).waits) :
    g.complete a = g.complete b := by
  have ha := h .a; have hb := h .b; have hc := h .c
  simp only [OpenGroup.complete, Lane.every, ha, hb, hc]

theorem State.laneStates_get (l : Lane) : s.laneStates.get l = (s.health.get l).state := by simp [State.laneStates]

/-- R25: a series of closes keeps which groups are complete. -/
theorem OpenGroup.complete_assessed {t u : State} {c : HealthConfig} (h : Assessed c t.health u.health) (g : OpenGroup) :
    g.complete u.laneStates = g.complete t.laneStates :=
  g.complete_congr fun l => by rw [State.laneStates_get, State.laneStates_get]; exact h.waits l

/-! ## The invariant of the open groups -/

/-- The open groups, whatever the part state. -/
structure OpenGroupsInv (table : GroupTable) (states : Lanes LaneState) : Prop where
  atMost : table.groups.length ≤ 4
  groups : ∀ g ∈ table.groups, OpenGroupInv table g
  incomplete : ∀ g ∈ table.groups, g.complete states = false

theorem OpenGroupInv.join {table : GroupTable} {g : OpenGroup} (h : OpenGroupInv table g) {lane : Lane} {t : Time}
    (hc : g.candidate table.window lane t = true) : OpenGroupInv table (g.join lane t) := by
  simp only [OpenGroup.candidate, Bool.and_eq_true] at hc
  refine ⟨h.deadline, ?_, ?_⟩
  · intro l u hu
    simp only [OpenGroup.join, Lanes.get_set] at hu
    split at hu
    · cases hu; exact hc.2
    · exact h.members l u hu
  · obtain ⟨l, hl⟩ := h.opener
    refine ⟨l, ?_⟩
    simp only [OpenGroup.join, Lanes.get_set]
    split
    · next he => subst he; rw [hl] at hc; simp at hc
    · exact hl

theorem withinWindow_self (w : Nat) (t : Time) : withinWindow w t t = true := by simp [withinWindow]

theorem OpenGroupInv.opened (table : GroupTable) (lane : Lane) (t : Time) : OpenGroupInv table (table.opened lane t) := by
  refine ⟨rfl, ?_, ⟨lane, by simp [GroupTable.opened]⟩⟩
  intro l u hu
  simp only [GroupTable.opened, Lanes.get_set] at hu ⊢
  split at hu
  · cases hu; exact withinWindow_self _ _
  · cases l <;> cases hu

theorem OpenGroupInv.of_eq {a b : GroupTable} {g : OpenGroup} (h : OpenGroupInv a g) (hw : b.window = a.window)
    (hs : b.settle = a.settle) : OpenGroupInv b g := by
  refine ⟨?_, ?_, h.opener⟩
  · rw [hw, hs]; exact h.deadline
  · rw [hw]; exact h.members

/-- Some of the groups of a table, under states with the same waiting set. -/
theorem OpenGroupsInv.of_subset {a b : GroupTable} {x y : Lanes LaneState} (h : OpenGroupsInv a x)
    (hw : b.window = a.window) (hs : b.settle = a.settle) (hl : b.groups.length ≤ 4) (hsub : ∀ g ∈ b.groups, g ∈ a.groups)
    (hc : ∀ g : OpenGroup, g.complete y = g.complete x) : OpenGroupsInv b y :=
  ⟨hl, fun g hg => (h.groups g (hsub g hg)).of_eq hw hs, fun g hg => by rw [hc]; exact h.incomplete g (hsub g hg)⟩

theorem State.makeRoom_table_window : s.makeRoom.table.window = s.table.window := by
  unfold State.makeRoom; split
  · rfl
  · split <;> simp

theorem State.makeRoom_table_settle : s.makeRoom.table.settle = s.table.settle := by
  unfold State.makeRoom; split
  · rfl
  · split <;> simp

theorem State.makeRoom_inv (h : OpenGroupsInv s.table s.laneStates) :
    OpenGroupsInv s.makeRoom.table s.makeRoom.laneStates ∧ s.makeRoom.table.groups.length ≤ 3 := by
  have ha := s.makeRoom_assessed
  have hc := fun g => OpenGroup.complete_assessed (t := s) (u := s.makeRoom) ha g
  have hgroups : s.makeRoom.table.groups =
      if 4 ≤ s.table.groups.length then s.table.groups.drop 1 else s.table.groups := by
    unfold State.makeRoom; split
    · next h => simp [h]
    · next h =>
      split
      · simp [h]
      · rw [h]
  have hlen : s.makeRoom.table.groups.length ≤ 3 := by
    rw [hgroups]
    have := h.atMost
    split
    · rw [List.length_drop]; omega
    · omega
  refine ⟨h.of_subset s.makeRoom_table_window s.makeRoom_table_settle (by omega) ?_ hc, hlen⟩
  intro g hg
  rw [hgroups] at hg
  split at hg
  · exact List.mem_of_mem_drop hg
  · exact hg

theorem State.settlePlaced_inv {before after : List OpenGroup} {g : OpenGroup} (hl : (before ++ g :: after).length ≤ 4)
    (hg : OpenGroupInv s.table g) (ho : ∀ x ∈ before ++ after, OpenGroupInv s.table x ∧ x.complete s.laneStates = false) :
    OpenGroupsInv (s.settlePlaced before g after).table (s.settlePlaced before g after).laneStates := by
  have ha := s.settlePlaced_assessed before g after
  have hc := fun x => OpenGroup.complete_assessed (t := s) (u := s.settlePlaced before g after) ha x
  simp only [List.length_append, List.length_cons] at hl
  by_cases hcomp : g.complete s.laneStates = true
  · have ht : (s.settlePlaced before g after).table =
        { s.table with groups := before ++ after, seq := s.table.seq + 1 } := by
      unfold State.settlePlaced; rw [if_pos hcomp]; simp
    refine ⟨by rw [ht]; simp; omega, ?_, ?_⟩
    · intro x hx
      rw [ht] at hx ⊢
      exact (ho x hx).1.of_eq rfl rfl
    · intro x hx
      rw [ht] at hx
      rw [hc]; exact (ho x hx).2
  · have ht : (s.settlePlaced before g after).table = { s.table with groups := before ++ g :: after } := by
      unfold State.settlePlaced; rw [if_neg hcomp]; rfl
    refine ⟨by rw [ht]; simp; omega, ?_, ?_⟩
    · intro x hx
      rw [ht] at hx ⊢
      simp only [List.mem_append, List.mem_cons] at hx
      rcases hx with hx | rfl | hx
      · exact (ho x (by simp [hx])).1.of_eq rfl rfl
      · exact hg.of_eq rfl rfl
      · exact (ho x (by simp [hx])).1.of_eq rfl rfl
    · intro x hx
      rw [ht] at hx
      rw [hc]
      simp only [List.mem_append, List.mem_cons] at hx
      rcases hx with hx | rfl | hx
      · exact (ho x (by simp [hx])).2
      · simpa using hcomp
      · exact (ho x (by simp [hx])).2

/-- R22 to R25: an arrival keeps the open groups' invariant. -/
theorem State.takeArrival_inv (h : OpenGroupsInv s.table s.laneStates) (lane : Lane) (t : Time) :
    OpenGroupsInv (s.takeArrival lane t).table (s.takeArrival lane t).laneStates := by
  unfold State.takeArrival
  split
  · next before g after hsp =>
    obtain ⟨hgs, hcand, _⟩ := splitCandidate_some hsp
    have hmem : ∀ x ∈ before ++ after, x ∈ s.table.groups := by
      intro x hx; rw [hgs]
      simp only [List.mem_append, List.mem_cons] at hx ⊢
      tauto
    refine s.settlePlaced_inv ?_ ((h.groups g (by rw [hgs]; simp)).join hcand) fun x hx =>
      ⟨h.groups x (hmem x hx), h.incomplete x (hmem x hx)⟩
    have := h.atMost; rw [hgs] at this
    simpa using this
  · unfold State.openGroup
    dsimp only
    obtain ⟨hr, hlen⟩ := s.makeRoom_inv h
    refine State.settlePlaced_inv _ (by simp; omega) (.opened _ _ _) fun x hx => ?_
    simp only [List.append_nil] at hx
    exact ⟨hr.groups x hx, hr.incomplete x hx⟩

/-- R28: an expiry keeps it. -/
theorem State.expireGroup_inv (h : OpenGroupsInv s.table s.laneStates) (k : Nat) (g : OpenGroup) :
    OpenGroupsInv (s.expireGroup k g).table (s.expireGroup k g).laneStates := by
  have hc := fun x => OpenGroup.complete_assessed (t := s) (u := s.expireGroup k g) (s.expireGroup_assessed k g) x
  have ht : (s.expireGroup k g).table =
      { s.table with groups := s.table.groups.eraseIdx (k - 1), seq := s.table.seq + 1 } := by simp [State.expireGroup]
  refine h.of_subset (by rw [ht]) (by rw [ht]) ?_ ?_ hc
  · rw [ht]
    have := h.atMost
    have := List.length_eraseIdx_le s.table.groups (k - 1)
    simp only; omega
  · intro x hx; rw [ht] at hx; exact List.mem_of_mem_eraseIdx hx

/-- R30: after the waiting set has shrunk, testing every group leaves no complete one. -/
theorem State.closeComplete_inv (hl : s.table.groups.length ≤ 4) (hg : ∀ g ∈ s.table.groups, OpenGroupInv s.table g) :
    OpenGroupsInv s.closeComplete.table s.closeComplete.laneStates := by
  have hc := fun x => OpenGroup.complete_assessed (t := s) (u := s.closeComplete) s.closeComplete_assessed x
  have ht : s.closeComplete.table.groups = s.table.groups.filter fun g => !g.complete s.laneStates := by
    simp [State.closeComplete, State.closeGroups_table]
  have hw : s.closeComplete.table.window = s.table.window := by simp [State.closeComplete, State.closeGroups_table]
  have hs : s.closeComplete.table.settle = s.table.settle := by simp [State.closeComplete, State.closeGroups_table]
  refine ⟨?_, ?_, ?_⟩
  · rw [ht]; exact (List.length_filter_le _ _).trans hl
  · intro x hx; rw [ht] at hx; exact (hg x (List.mem_filter.mp hx).1).of_eq hw hs
  · intro x hx; rw [ht] at hx; rw [hc]; simpa using (List.mem_filter.mp hx).2

end Sys2Proof.Machine
end

