-- ==== Sys2Proof/Laws/Schedule.lean ====
section
/-! SUPPORT. The banks and the armed list: what an anchor notice and a close do to them, and that both keep their invariants. -/

namespace Sys2Proof.Machine

variable (s : State)

/-! ## The banks -/

/-- The part of the banks' invariant that does not look at the part state. -/
structure BanksInv (c : Schedule) : Prop where
  size : ∀ bank, (c.entries bank).length = 12
  entries : ∀ bank, ∀ e ∈ c.entries bank, e.inRange = true

/-- All an anchor notice does to the banks: a pending commit is taken, or nothing. -/
def Schedule.noticed (c : Schedule) : Schedule := if c.commit = .pending then c.exchange else c

theorem Schedule.exchange_entries (c : Schedule) (bank : Bank) : c.exchange.entries bank = c.entries bank := by
  cases bank <;> rfl

theorem Schedule.noticed_entries (c : Schedule) (bank : Bank) : c.noticed.entries bank = c.entries bank := by
  unfold Schedule.noticed; split
  · exact c.exchange_entries bank
  · rfl

@[simp] theorem State.takeCommit_schedule (n : Time) : (s.takeCommit n).schedule = s.schedule.noticed := by
  unfold State.takeCommit Schedule.noticed State.flagCommit; dsimp only; split <;> simp

@[simp] theorem State.takeNotice_schedule (n : Notice) : (s.takeNotice n).schedule = s.schedule.noticed := by
  simp [State.takeNotice, State.workNotice]

theorem BanksInv.noticed {c : Schedule} (h : BanksInv c) : BanksInv c.noticed :=
  ⟨fun bank => by rw [c.noticed_entries]; exact h.size bank, fun bank e he => by
    rw [c.noticed_entries] at he; exact h.entries bank e he⟩

/-- `c'` is `c` after some anchor notices. -/
inductive Noticed : Schedule → Schedule → Prop where
  | refl (c : Schedule) : Noticed c c
  | notice {c c' : Schedule} (h : Noticed c c') : Noticed c c'.noticed

theorem Noticed.trans {a b c : Schedule} (h : Noticed a b) (h' : Noticed b c) : Noticed a c := by
  induction h' with
  | refl => exact h
  | notice _ ih => exact .notice ih

theorem Noticed.banks {c c' : Schedule} (h : Noticed c c') (hb : BanksInv c) : BanksInv c' := by
  induction h with
  | refl => exact hb
  | notice _ ih => exact ih.noticed

/-- R123: a commit that is not pending before is not pending after. -/
theorem Noticed.pending {c c' : Schedule} (h : Noticed c c') (hp : c'.commit = .pending) : c.commit = .pending := by
  induction h with
  | refl => exact hp
  | notice _ ih =>
    apply ih
    unfold Schedule.noticed at hp
    split at hp
    · next hd => exact hd
    · exact hp

theorem State.track_noticed (r : VoteResult) : Noticed s.schedule (s.track r).schedule := by
  unfold State.track State.trackOutOfOrder State.trackAnchor State.flagLimit
  split <;> (try split) <;> (try dsimp only) <;> (try split) <;> (try simp) <;>
    first | exact .refl _ | exact .notice (.refl _)

theorem State.closeGroup_noticed (r : CloseReason) (g : OpenGroup) : Noticed s.schedule (s.closeGroup r g).schedule := by
  unfold State.closeGroup State.handOn; dsimp only
  generalize s.voteOn _ = res
  have h := State.track_noticed (((s.takeNumber r).countVote res).assess res) res
  simp only [State.assess_schedule, State.countVote_schedule, State.takeNumber_schedule] at h
  exact h

/-! ## The armed list -/

theorem insertArmed_length (n : Time) (x : ArmedAction) (l : List ArmedAction) :
    (insertArmed n x l).length = l.length + 1 := by
  induction l with
  | nil => rfl
  | cons y rest ih => unfold insertArmed; split <;> simp [ih]

theorem mem_insertArmed {n : Time} {x y : ArmedAction} {l : List ArmedAction} :
    y ∈ insertArmed n x l ↔ y = x ∨ y ∈ l := by
  induction l with
  | nil => simp [insertArmed]
  | cons z rest ih =>
    unfold insertArmed; split
    · simp
    · simp only [List.mem_cons, ih]; tauto

/-- R136: an action is placed before the first held action it stands before, and the others keep their order. -/
theorem insertArmed_split (n : Time) (x : ArmedAction) (l : List ArmedAction) :
    ∃ before after, l = before ++ after ∧ insertArmed n x l = before ++ x :: after ∧
      (∀ y ∈ before, standsBefore n x y = false) ∧ ∀ y, after.head? = some y → standsBefore n x y = true := by
  induction l with
  | nil => exact ⟨[], [], rfl, rfl, by simp, by simp⟩
  | cons z rest ih =>
    unfold insertArmed; split
    · next h => exact ⟨[], z :: rest, rfl, rfl, by simp, by intro y hy; cases hy; exact h⟩
    · next h =>
      obtain ⟨b, a, h1, h2, h3, h4⟩ := ih
      refine ⟨z :: b, a, by rw [h1]; rfl, by rw [h2]; rfl, ?_, h4⟩
      intro y hy
      rcases List.mem_cons.mp hy with rfl | hy
      · simpa using h
      · exact h3 y hy

/-- The armed list, whatever the part state. -/
structure ArmedListInv (l : List ArmedAction) : Prop where
  atMost : l.length ≤ 16
  actions : ∀ x ∈ l, ArmedActionInv x

theorem ArmedListInv.insert {l : List ArmedAction} (h : ArmedListInv l) (hl : l.length < 16) {x : ArmedAction}
    (hx : ArmedActionInv x) (n : Time) : ArmedListInv (insertArmed n x l) := by
  refine ⟨by rw [insertArmed_length]; omega, fun y hy => ?_⟩
  rcases mem_insertArmed.mp hy with rfl | hy
  · exact hx
  · exact h.actions y hy

theorem ArmedActionInv.toTrailing {x : ArmedAction} (h : ArmedActionInv x) (hp : x.action.isPulse = true) :
    ArmedActionInv x.trailing := ⟨h.entry, h.width, fun _ => hp⟩

@[simp] theorem State.arm_armed (x : ArmedAction) : (s.arm x).armed = insertArmed s.tracker.anchorCount x s.armed := rfl

theorem State.armLater_armed (h : ArmedListInv s.armed) {x : ArmedAction} (hx : ArmedActionInv x) :
    ArmedListInv (s.armLater x).armed := by
  unfold State.armLater; split
  · simpa using h
  · next hf => exact h.insert (by simpa [State.armedFull] using hf) hx _

theorem State.armLate_armed (h : ArmedListInv s.armed) {x : ArmedAction} (hx : ArmedActionInv x) :
    ArmedListInv (s.armLate x).armed := by
  unfold State.armLate State.executeLate State.countLate
  split
  · simpa using h
  · split
    · next hp =>
      split
      · simpa using h
      · split
        · simpa using h
        · next hf => simpa using h.insert (by simpa [State.armedFull] using hf) (hx.toTrailing hp) _
    · simpa using h

theorem Entry.armedAction_inv {e : Entry} (he : e.inRange = true) {i : Nat} (hi : i < 12) (n : Notice) (d : Nat) :
    ArmedActionInv (e.armedAction i n d) := by
  simp only [Entry.inRange, Bool.and_eq_true, decide_eq_true_eq] at he
  exact ⟨hi, ⟨he.1.1.2, he.1.2⟩, nofun⟩

theorem State.armEntry_armed (h : ArmedListInv s.armed) (n : Notice) {i : Nat} (hi : i < 12) {e : Entry}
    (he : e.inRange = true) : ArmedListInv (s.armEntry n i e).armed := by
  unfold State.armEntry; split
  · split
    · simpa using h
    · next d _ =>
      dsimp only; split
      · exact s.armLate_armed h (Entry.armedAction_inv he hi n d)
      · exact s.armLater_armed h (Entry.armedAction_inv he hi n d)
  · exact h

theorem State.armEntries_armed (h : ArmedListInv s.armed) (n : Notice) {i : Nat} {es : List Entry} (hi : i + es.length ≤ 12)
    (he : ∀ e ∈ es, e.inRange = true) : ArmedListInv (s.armEntries n i es).armed := by
  induction es generalizing s i with
  | nil => exact h
  | cons e rest ih =>
    simp only [List.length_cons] at hi
    exact ih _ (s.armEntry_armed h n (by omega) (he e (by simp))) (by omega) fun x hx => he x (by simp [hx])

/-- R126, R131: an anchor notice keeps the armed list's invariant. -/
theorem State.takeNotice_armed (h : ArmedListInv s.armed) (hb : BanksInv s.schedule) (n : Notice) :
    ArmedListInv (s.takeNotice n).armed := by
  unfold State.takeNotice State.workNotice; dsimp only
  rw [State.setQueue_armed]
  refine State.armEntries_armed _ (by simpa using h) n ?_ ?_
  · rw [State.takeCommit_schedule, Schedule.noticed_entries, State.setQueue_schedule, hb.size]
  · rw [State.takeCommit_schedule, Schedule.noticed_entries]; exact hb.entries _

theorem State.track_armed (h : ArmedListInv s.armed) (hb : BanksInv s.schedule) (r : VoteResult) :
    ArmedListInv (s.track r).armed := by
  unfold State.track State.trackOutOfOrder State.trackAnchor State.flagLimit
  split <;> (try split) <;> (try dsimp only) <;> (try split) <;>
    first
    | simpa using h
    | exact State.takeNotice_armed _ (by simpa using h) (by simpa using hb) _

theorem State.closeGroup_armed (h : ArmedListInv s.armed) (hb : BanksInv s.schedule) (r : CloseReason) (g : OpenGroup) :
    ArmedListInv (s.closeGroup r g).armed := by
  unfold State.closeGroup State.handOn; dsimp only
  exact State.track_armed _ (by simpa using h) (by simpa using hb) _

/-! ## Series of closes -/

/-- The banks and the armed list, after a series of closes. -/
structure Scheduled (s t : State) : Prop where
  noticed : Noticed s.schedule t.schedule
  armed : ArmedListInv s.armed → BanksInv s.schedule → ArmedListInv t.armed

theorem Scheduled.refl : Scheduled s s := ⟨.refl _, fun h _ => h⟩

theorem Scheduled.trans {s t u : State} (h : Scheduled s t) (h' : Scheduled t u) : Scheduled s u :=
  ⟨h.noticed.trans h'.noticed, fun ha hb => h'.armed (h.armed ha hb) (h.noticed.banks hb)⟩

theorem State.closeGroup_scheduled (r : CloseReason) (g : OpenGroup) : Scheduled s (s.closeGroup r g) :=
  ⟨s.closeGroup_noticed r g, fun h hb => s.closeGroup_armed h hb r g⟩

theorem State.setGroups_scheduled (gs : List OpenGroup) : Scheduled s (s.setGroups gs) :=
  ⟨.refl _, fun h _ => h⟩

theorem State.closeGroups_scheduled (r : CloseReason) (gs : List OpenGroup) : Scheduled s (s.closeGroups r gs) := by
  induction gs generalizing s with
  | nil => exact .refl s
  | cons g rest ih => exact (s.closeGroup_scheduled r g).trans (ih _)

theorem State.settlePlaced_scheduled (l : List OpenGroup) (g : OpenGroup) (r : List OpenGroup) :
    Scheduled s (s.settlePlaced l g r) := by
  unfold State.settlePlaced; split
  · exact (s.setGroups_scheduled _).trans (State.closeGroup_scheduled _ _ _)
  · exact s.setGroups_scheduled _

theorem State.makeRoom_scheduled : Scheduled s s.makeRoom := by
  unfold State.makeRoom; split
  · exact .refl s
  · split
    · exact (s.setGroups_scheduled _).trans (State.closeGroup_scheduled _ _ _)
    · exact .refl s

theorem State.takeArrival_scheduled (lane : Lane) (t : Time) : Scheduled s (s.takeArrival lane t) := by
  unfold State.takeArrival; split
  · exact s.settlePlaced_scheduled _ _ _
  · exact s.makeRoom_scheduled.trans (State.settlePlaced_scheduled _ _ _ _)

theorem State.closeComplete_scheduled : Scheduled s s.closeComplete :=
  (s.setGroups_scheduled _).trans (State.closeGroups_scheduled _ _ _)

theorem State.expireGroup_scheduled (k : Nat) (g : OpenGroup) : Scheduled s (s.expireGroup k g) :=
  (s.setGroups_scheduled _).trans (State.closeGroup_scheduled _ _ _)

theorem ArmedListInv.expire {l : List ArmedAction} {x : ArmedAction} (h : ArmedListInv (x :: l)) (n : Time) :
    ArmedListInv (if x.continues then insertArmed n x.trailing l else l) := by
  have hl : ArmedListInv l := ⟨by have := h.atMost; simp at this; omega, fun y hy => h.actions y (by simp [hy])⟩
  split
  · next hc =>
    simp only [ArmedAction.continues, Bool.and_eq_true] at hc
    exact hl.insert (by have := h.atMost; simp at this; omega) ((h.actions x (by simp)).toTrailing hc.1) n
  · exact hl

@[simp] theorem State.expireArmed_armed (x : ArmedAction) (rest : List ArmedAction) :
    (s.expireArmed x rest).armed = if x.continues then insertArmed s.tracker.anchorCount x.trailing rest else rest := by
  unfold State.expireArmed; dsimp only; split <;> simp

end Sys2Proof.Machine
end

