-- ==== Sys2Proof/Laws/Kept.lean ====
section
/-! SUPPORT. What no arrival, expiry or close changes in the blocks that it does reach: the settings, the entry window, the contents
of both banks, the snapshot and the interrupt enables. -/

namespace Sys2Proof.Machine

variable (s : State)

/-- The parts of the reached blocks that stay. -/
structure Kept (s t : State) : Prop where
  window : t.table.window = s.table.window
  settle : t.table.settle = s.table.settle
  threshold : t.queue.threshold = s.queue.threshold
  staging : t.schedule.staging = s.schedule.staging
  index : t.schedule.index = s.schedule.index
  operation : t.schedule.operation = s.schedule.operation
  entryResult : t.schedule.entryResult = s.schedule.entryResult
  latePolicy : t.schedule.latePolicy = s.schedule.latePolicy
  entries : ∀ bank, t.schedule.entries bank = s.schedule.entries bank
  enable : t.output.enable = s.output.enable
  safe : t.output.safe = s.output.safe
  enables : t.interrupt.enables = s.interrupt.enables
  bank : t.stats.bank = s.stats.bank
  time : t.stats.time = s.stats.time
  taken : t.stats.taken = s.stats.taken

theorem Kept.refl : Kept s s := ⟨rfl, rfl, rfl, rfl, rfl, rfl, rfl, rfl, fun _ => rfl, rfl, rfl, rfl, rfl, rfl, rfl⟩

theorem Kept.trans {s t u : State} (h : Kept s t) (h' : Kept t u) : Kept s u :=
  ⟨h'.1.trans h.1, h'.2.trans h.2, h'.3.trans h.3, h'.4.trans h.4, h'.5.trans h.5, h'.6.trans h.6, h'.7.trans h.7,
    h'.8.trans h.8, fun bank => (h'.9 bank).trans (h.9 bank), h'.10.trans h.10, h'.11.trans h.11, h'.12.trans h.12,
    h'.13.trans h.13, h'.14.trans h.14, h'.15.trans h.15⟩

theorem State.offer_kept (body : RecordBody) : Kept s (s.offer body) := by
  rw [State.offer_eq]
  exact ⟨rfl, rfl, s.queue.offer_threshold body, rfl, rfl, rfl, rfl, rfl, fun _ => rfl, rfl, rfl, rfl, rfl, rfl, rfl⟩

theorem State.setFlags_kept (f : Flags → Flags) : Kept s (s.setFlags f) :=
  ⟨rfl, rfl, rfl, rfl, rfl, rfl, rfl, rfl, fun _ => rfl, rfl, rfl, rfl, rfl, rfl, rfl⟩

theorem State.count_kept (f : Counters → Counters) : Kept s (s.count f) :=
  ⟨rfl, rfl, rfl, rfl, rfl, rfl, rfl, rfl, fun _ => rfl, rfl, rfl, rfl, rfl, rfl, rfl⟩

theorem State.drive_kept (line : Line) (a : Action) (p : Phase) : Kept s (s.drive line a p) :=
  ⟨rfl, rfl, rfl, rfl, rfl, rfl, rfl, rfl, fun _ => rfl, rfl, rfl, rfl, rfl, rfl, rfl⟩

theorem State.arm_kept (x : ArmedAction) : Kept s (s.arm x) :=
  ⟨rfl, rfl, rfl, rfl, rfl, rfl, rfl, rfl, fun _ => rfl, rfl, rfl, rfl, rfl, rfl, rfl⟩

theorem State.setTracker_kept (t : Tracker) : Kept s (s.setTracker t) :=
  ⟨rfl, rfl, rfl, rfl, rfl, rfl, rfl, rfl, fun _ => rfl, rfl, rfl, rfl, rfl, rfl, rfl⟩

theorem State.setHealth_kept (hs : Lanes HealthRecord) : Kept s (s.setHealth hs) :=
  ⟨rfl, rfl, rfl, rfl, rfl, rfl, rfl, rfl, fun _ => rfl, rfl, rfl, rfl, rfl, rfl, rfl⟩

theorem State.setGroups_kept (gs : List OpenGroup) : Kept s (s.setGroups gs) :=
  ⟨rfl, rfl, rfl, rfl, rfl, rfl, rfl, rfl, fun _ => rfl, rfl, rfl, rfl, rfl, rfl, rfl⟩

theorem State.takeNumber_kept (r : CloseReason) : Kept s (s.takeNumber r) :=
  ⟨rfl, rfl, rfl, rfl, rfl, rfl, rfl, rfl, fun _ => rfl, rfl, rfl, rfl, rfl, rfl, rfl⟩

theorem State.exchange_kept : Kept s (s.setSchedule s.schedule.exchange) :=
  ⟨rfl, rfl, rfl, rfl, rfl, rfl, rfl, rfl, s.schedule.exchange_entries, rfl, rfl, rfl, rfl, rfl, rfl⟩

theorem State.takeCommit_kept (n : Time) : Kept s (s.takeCommit n) := by
  unfold State.takeCommit State.flagCommit; split
  · exact (s.exchange_kept.trans (State.offer_kept _ _)).trans (State.setFlags_kept _ _)
  · exact .refl s

theorem State.miss_kept (i : Nat) (n : Time) (r : MissedReason) : Kept s (s.miss i n r) := by
  unfold State.miss State.flagMissed
  exact ((s.offer_kept _).trans (State.setFlags_kept _ _)).trans (State.count_kept _ _)

theorem State.countLate_kept : Kept s s.countLate := s.count_kept _

theorem State.armLater_kept (x : ArmedAction) : Kept s (s.armLater x) := by
  unfold State.armLater; split
  · exact s.miss_kept _ _ _
  · exact s.arm_kept _

theorem State.armLate_kept (x : ArmedAction) : Kept s (s.armLate x) := by
  unfold State.armLate State.executeLate
  split
  · exact s.miss_kept _ _ _
  · split
    · split
      · exact ((s.drive_kept _ _ _).trans (State.drive_kept _ _ _ _)).trans (State.countLate_kept _)
      · split
        · exact s.miss_kept _ _ _
        · exact ((s.drive_kept _ _ _).trans (State.arm_kept _ _)).trans (State.countLate_kept _)
    · exact (s.drive_kept _ _ _).trans (State.countLate_kept _)

theorem State.armEntry_kept (n : Notice) (i : Nat) (e : Entry) : Kept s (s.armEntry n i e) := by
  unfold State.armEntry; split
  · split
    · exact s.miss_kept _ _ _
    · dsimp only; split
      · exact s.armLate_kept _
      · exact s.armLater_kept _
  · exact .refl s

theorem State.armEntries_kept (n : Notice) (i : Nat) (es : List Entry) : Kept s (s.armEntries n i es) := by
  induction es generalizing s i with
  | nil => exact .refl s
  | cons e rest ih => exact (s.armEntry_kept n i e).trans (ih _ _)

theorem State.setQueue_kept {q : EventQueue} (h : q.threshold = s.queue.threshold) : Kept s (s.setQueue q) :=
  ⟨rfl, rfl, h, rfl, rfl, rfl, rfl, rfl, fun _ => rfl, rfl, rfl, rfl, rfl, rfl, rfl⟩

theorem State.takeNotice_kept (n : Notice) : Kept s (s.takeNotice n) :=
  (((s.setQueue_kept s.queue.hold_threshold).trans (State.takeCommit_kept _ _)).trans (State.armEntries_kept _ _ _ _)).trans
    (State.setQueue_kept _ (EventQueue.resume_threshold _ _))

theorem State.trackAnchor_kept (r : VoteResult) (v : Time) : Kept s (s.trackAnchor r v) := by
  unfold State.trackAnchor State.flagLimit; dsimp only
  refine Kept.trans ?_ (State.takeNotice_kept _ _)
  refine Kept.trans ?_ (State.offer_kept _ _)
  split
  · exact (s.setTracker_kept _).trans (State.setFlags_kept _ _)
  · exact s.setTracker_kept _

theorem State.track_kept (r : VoteResult) : Kept s (s.track r) := by
  unfold State.track State.trackOutOfOrder
  split <;> (try split) <;>
    first
    | exact s.offer_kept _
    | exact s.trackAnchor_kept _ _
    | exact (s.count_kept _).trans (State.offer_kept _ _)

theorem State.reportAssessed_kept (n : Word) (old : LaneState) (lane : Lane) : Kept s (s.reportAssessed n old lane) := by
  unfold State.reportAssessed State.reportLane State.flagLane; dsimp only; split
  · exact .refl s
  · exact (s.offer_kept _).trans (State.setFlags_kept _ _)

theorem State.assess_kept (r : VoteResult) : Kept s (s.assess r) := by
  unfold State.assess; dsimp only
  exact (((s.setHealth_kept _).trans (State.reportAssessed_kept _ _ _ _)).trans (State.reportAssessed_kept _ _ _ _)).trans
    (State.reportAssessed_kept _ _ _ _)

theorem State.closeGroup_kept (r : CloseReason) (g : OpenGroup) : Kept s (s.closeGroup r g) := by
  unfold State.closeGroup State.handOn; dsimp only
  exact (((s.takeNumber_kept r).trans (State.count_kept _ _)).trans (State.assess_kept _ _)).trans (State.track_kept _ _)

theorem State.closeGroups_kept (r : CloseReason) (gs : List OpenGroup) : Kept s (s.closeGroups r gs) := by
  induction gs generalizing s with
  | nil => exact .refl s
  | cons g rest ih => exact (s.closeGroup_kept r g).trans (ih _)

theorem State.settlePlaced_kept (l : List OpenGroup) (g : OpenGroup) (r : List OpenGroup) : Kept s (s.settlePlaced l g r) := by
  unfold State.settlePlaced; split
  · exact (s.setGroups_kept _).trans (State.closeGroup_kept _ _ _)
  · exact s.setGroups_kept _

theorem State.makeRoom_kept : Kept s s.makeRoom := by
  unfold State.makeRoom; split
  · exact .refl s
  · split
    · exact (s.setGroups_kept _).trans (State.closeGroup_kept _ _ _)
    · exact .refl s

/-- R22 to R25: an arrival. -/
theorem State.takeArrival_kept (lane : Lane) (t : Time) : Kept s (s.takeArrival lane t) := by
  unfold State.takeArrival; split
  · exact s.settlePlaced_kept _ _ _
  · exact s.makeRoom_kept.trans (State.settlePlaced_kept _ _ _ _)

/-- R28: an expiry. -/
theorem State.expireGroup_kept (k : Nat) (g : OpenGroup) : Kept s (s.expireGroup k g) :=
  (s.setGroups_kept _).trans (State.closeGroup_kept _ _ _)

/-- R30: the closes after a lane has become OFF. -/
theorem State.closeComplete_kept : Kept s s.closeComplete := (s.setGroups_kept _).trans (State.closeGroups_kept _ _ _)

end Sys2Proof.Machine
end

