-- ==== Sys2Proof/Laws/Shapes.lean ====
section
/-! SUPPORT. The shape of each composite operation, said once: what a sample, a lane command, an armed expiry, a completed pair
write, START and STOP can do to the state. -/

namespace Sys2Proof.Machine

variable (s : State)

/-- R35: a series of closes, as a fold. -/
theorem State.closeGroups_eq_foldl (r : CloseReason) (gs : List OpenGroup) :
    s.closeGroups r gs = gs.foldl (fun t g => t.closeGroup r g) s := by
  induction gs generalizing s with
  | nil => rfl
  | cons g rest ih => exact ih (s.closeGroup r g)

/-- R126: the entries of a bank, as a fold. -/
theorem State.armEntries_eq_foldl (n : Notice) (i : Nat) (es : List Entry) :
    s.armEntries n i es = (es.zipIdx i).foldl (fun t e => t.armEntry n e.2 e.1) s := by
  induction es generalizing s i with
  | nil => rfl
  | cons e rest ih => exact ih (s.armEntry n i e) (i + 1)

/-- R5, R8 to R13: a sample writes the front ends and the counters, and then, if it accepts an edge, the table takes the arrival. -/
theorem State.takeSample_cases (lane : Lane) (level : Bool) :
    ∃ (fs : Lanes FrontEnd) (st : Statistics),
      s.takeSample lane level = (s.setFrontEnds fs).setStats st ∨
      ∃ stamp, s.takeSample lane level = ((s.setFrontEnds fs).setStats st).takeArrival lane stamp := by
  unfold State.takeSample
  generalize (s.frontEnds.get lane).filter (s.laneConfig.get lane).filter s.now level = p
  obtain ⟨fe, outcome⟩ := p
  cases outcome with
  | quiet => exact ⟨s.frontEnds.update lane fun _ => { fe with sampleDue := false }, s.stats, .inl rfl⟩
  | glitch => exact ⟨_, _, .inl rfl⟩
  | confirmed stamp =>
    simp only [State.confirmEdge]
    split
    · split
      · exact ⟨_, _, .inl rfl⟩
      · exact ⟨_, _, .inr ⟨stamp, rfl⟩⟩
    · exact ⟨s.frontEnds.update lane fun _ => { fe with sampleDue := false }, s.stats, .inl rfl⟩

/-- R77 to R79: a lane command that changes a lane's state. -/
theorem State.commandLane_eq (lane : Lane) (new : LaneState) (cause : LaneCause) : s.commandLane lane new cause =
    { s with
      health := s.health.set lane (.fresh new)
      queue := s.queue.offer (.lane { lane := lane, old := (s.health.get lane).state, new := new, cause := cause, score := 0,
                                      groupSeq := none })
      interrupt := { s.interrupt with flags := { s.interrupt.flags with
        lane := true, overrun := s.interrupt.flags.overrun || decide (31 ≤ s.queue.records.length) } } } := by
  simp [State.commandLane, State.reportLane, State.offer_eq, State.flagLane, State.setFlags, State.setInterrupt,
    State.setLaneHealth, State.setHealth]

/-- R77: LANE ENABLE accepted in RUN. -/
theorem State.enableLane_eq (lane : Lane) : s.enableLane lane =
    { s with
      laneConfig := s.laneConfig.set lane { s.laneConfig.get lane with enable := true }
      frontEnds := s.frontEnds.set lane (.initial (s.lanePins.get lane))
      health := s.health.set lane (.fresh .probation)
      queue := s.queue.offer (.lane { lane := lane, old := (s.health.get lane).state, new := .probation, cause := .enable,
                                      score := 0, groupSeq := none })
      interrupt := { s.interrupt with flags := { s.interrupt.flags with
        lane := true, overrun := s.interrupt.flags.overrun || decide (31 ≤ s.queue.records.length) } } } := by
  rw [State.enableLane, State.commandLane_eq]; rfl

/-- R78: LANE DISABLE accepted in RUN, before the groups are tested (R30). -/
theorem State.disableLane_eq (lane : Lane) : s.disableLane lane = State.closeComplete
    { s with
      laneConfig := s.laneConfig.set lane { s.laneConfig.get lane with enable := false }
      frontEnds := s.frontEnds.set lane .stopped
      health := s.health.set lane (.fresh .off)
      queue := s.queue.offer (.lane { lane := lane, old := (s.health.get lane).state, new := .off, cause := .disable,
                                      score := 0, groupSeq := none })
      interrupt := { s.interrupt with flags := { s.interrupt.flags with
        lane := true, overrun := s.interrupt.flags.overrun || decide (31 ≤ s.queue.records.length) } } } := by
  rw [State.disableLane, State.commandLane_eq]; rfl

/-- R137 to R139: an expiry of the armed head writes the latches and the list. -/
theorem State.expireArmed_eq (x : ArmedAction) (rest : List ArmedAction) : s.expireArmed x rest =
    { s with
      output := { s.output with latch := s.output.latch.set x.line (latchAfter x.action x.phase (s.output.latch.get x.line)) }
      armed := if x.continues then insertArmed s.tracker.anchorCount x.trailing rest else rest } := by
  unfold State.expireArmed
  split <;> rfl

/-- R90: the tracker's expiry. -/
theorem State.expireStall_eq : s.expireStall =
    { s with
      queue := s.queue.offer (.stall s.timebase.now s.tracker.lastAnchor)
      interrupt := { s.interrupt with flags := { s.interrupt.flags with
        stall := true, overrun := s.interrupt.flags.overrun || decide (31 ≤ s.queue.records.length) } }
      tracker := { s.tracker with lastAnchor := none, refPeriod := none, stall := .stalled } } := by
  simp [State.expireStall, State.offer_eq, State.flagStall, State.setFlags, State.setInterrupt, State.setTracker, State.now]

/-- R93 to R95: a completed pair write reaches the limits, the tracker, the queue, the flags and the bus status alone. -/
theorem State.writePair_shape (pair : WritablePair) (v : Time) :
    ∃ (l : Limits) (t : Tracker) (q : EventQueue) (i : Interrupt) (w : RegisterWindow), q.threshold = s.queue.threshold ∧
      s.writePair pair v = { s with limits := l, tracker := t, queue := q, interrupt := i, window := w } := by
  cases pair <;> simp only [State.writePair, State.writePmin, State.writePmax, State.writeStallto, State.expireStall_eq] <;>
    (repeat' split) <;> first
    | exact ⟨_, s.tracker, s.queue, s.interrupt, s.window, rfl, rfl⟩
    | exact ⟨_, _, s.queue, s.interrupt, s.window, rfl, rfl⟩
    | exact ⟨s.limits, s.tracker, s.queue, _, _, rfl, rfl⟩
    | exact ⟨_, _, _, _, s.window, EventQueue.offer_threshold _ _, rfl⟩

/-- R160: what START writes. -/
theorem State.startRun_eq : s.startRun =
    { s with
      table := { s.table with groups := [], seq := 0, settle := settleAllowance s.laneConfig }
      health := s.startStates.map HealthRecord.fresh
      frontEnds := s.startFrontEnds
      tracker := .cleared 0 s.timebase.now
      armed := []
      queue := s.queue.offer (.start s.timebase.now s.startStates)
      interrupt := { s.interrupt with flags := { s.interrupt.flags with
        overrun := s.interrupt.flags.overrun || decide (31 ≤ s.queue.records.length) } }
      command := { s.command with partState := .run } } := by
  simp only [State.startRun, State.offer_eq, State.setTable, State.setHealth, State.setFrontEnds, State.setTracker, State.setArmed,
    State.setCommand, State.now]

/-- R162: what STOP writes, whatever its closes do to the counters, the health records and the tracker. -/
theorem State.stopRun_shape : ∃ u, u = s.stopGroups ∧ s.stopRun =
    { u with
      armed := []
      output := { u.output with latch := u.output.safe }
      schedule := u.schedule.withdraw
      health := idleLanes
      frontEnds := Lanes.build fun _ => .stopped
      tracker := .cleared u.tracker.anchorCount 0
      queue := u.queue.offer (.stop s.timebase.now s.table.groups.length u.armed.length)
      interrupt := { u.interrupt with flags := { u.interrupt.flags with
        overrun := u.interrupt.flags.overrun || decide (31 ≤ u.queue.records.length) } }
      command := { u.command with partState := .config, entryCause := .stop } } := by
  refine ⟨_, rfl, ?_⟩
  simp only [State.stopRun, State.offer_eq, State.setArmed, State.safeLatches, State.setOutput, State.setSchedule, State.setHealth,
    State.stopFrontEnds, State.setFrontEnds, State.setTracker, State.setCommand, State.now]

end Sys2Proof.Machine
end

