-- ==== Sys2Proof/Laws/Tracker.lean ====
section
/-! SUPPORT. The period tracker: an anchor keeps what the tracker holds consistent, and so do a stall and new limits. -/

namespace Sys2Proof.Machine

/-- The part of the tracker's invariant that does not look at the part state. -/
structure TrackerHeld (l : Limits) (t : Tracker) : Prop where
  stalled : t.stall = .stalled → t.lastAnchor = none
  held : t.lastAnchor = none → t.refPeriod = none
  period : ∀ p, t.refPeriod = some p → l.lower.toNat ≤ p.toNat ∧ p.toNat ≤ l.upper.toNat
  origin : ∀ v, t.lastAnchor = some v → t.origin = v

/-- R86: the clamped period lies between the limits. -/
theorem Limits.clamp_bounds {l : Limits} (h : l.lower.toNat ≤ l.upper.toNat) (raw : Time) :
    l.lower.toNat ≤ (l.clamp raw).2.toNat ∧ (l.clamp raw).2.toNat ≤ l.upper.toNat := by
  unfold Limits.clamp
  split
  · exact ⟨Nat.le_refl _, h⟩
  · split
    · exact ⟨h, Nat.le_refl _⟩
    · simp only; omega

theorem Limits.inRange_le {l : Limits} (h : l.inRange = true) : l.lower.toNat < l.upper.toNat := by
  simp only [Limits.inRange, Bool.and_eq_true, decide_eq_true_eq] at h; exact h.1.2

theorem TrackerHeld.anchor {l : Limits} {t : Tracker} (h : TrackerHeld l t) (hl : l.lower.toNat ≤ l.upper.toNat) (v : Time) :
    TrackerHeld l (t.anchor l v) := by
  refine ⟨nofun, nofun, ?_, ?_⟩
  · intro p hp
    simp only [Tracker.anchor, Tracker.limited, Tracker.rawPeriod] at hp
    cases hla : t.lastAnchor with
    | none =>
      rw [hla] at hp; simp only [Option.map_none] at hp
      rw [h.held hla] at hp; cases hp
    | some u =>
      rw [hla] at hp; simp only [Option.map_some] at hp
      cases hp
      exact Limits.clamp_bounds hl _
  · intro u hu; simp only [Tracker.anchor, Option.some.injEq] at hu; exact hu

theorem Anchored.trackerHeld {l : Limits} {t t' : Tracker} (h : Anchored l t t') (hl : l.lower.toNat ≤ l.upper.toNat)
    (ht : TrackerHeld l t) : TrackerHeld l t' := by
  induction h with
  | refl => exact ht
  | anchor v _ ih => exact ih.anchor hl v

theorem TrackerHeld.cleared (l : Limits) (n o : Time) : TrackerHeld l (.cleared n o) :=
  ⟨nofun, fun _ => rfl, nofun, nofun⟩

@[simp] theorem State.expireStall_tracker (s : State) :
    s.expireStall.tracker = { s.tracker with lastAnchor := none, refPeriod := none, stall := .stalled } := by
  simp [State.expireStall]

theorem TrackerHeld.stall {l : Limits} {t : Tracker} :
    TrackerHeld l { t with lastAnchor := none, refPeriod := none, stall := .stalled } := ⟨fun _ => rfl, fun _ => rfl, nofun, nofun⟩

/-- R94: a re-clamp brings a held reference period between the new limits. -/
theorem TrackerHeld.reclamp {l l' : Limits} {t : Tracker} (h : TrackerHeld l t) (hl : l'.lower.toNat ≤ l'.upper.toNat) :
    TrackerHeld l' (t.reclamp l') := by
  refine ⟨h.stalled, ?_, ?_, h.origin⟩
  · intro hn; simp [Tracker.reclamp, h.held hn]
  · intro p hp
    simp only [Tracker.reclamp] at hp
    cases hr : t.refPeriod with
    | none => rw [hr] at hp; cases hp
    | some q =>
      rw [hr] at hp; simp only [Option.map_some, Option.some.injEq] at hp
      subst hp; exact Limits.clamp_bounds hl q

end Sys2Proof.Machine
end

