-- ==== Sys2Proof/Laws/Window.lean ====
section
/-! SUPPORT. Which command an access makes: a code, an operation or an address that names none of the others gives the refusing
or the ignored command, and that is what well-formedness asks of those terms. A write is carried out as the command it makes. The bits
of a field placed in a word. -/

namespace Sys2Proof

/-- Section 11.6: a code that names no command. -/
theorem commandOfCode_illegal {code arg : BitVec 8} (h : namesCommand code = false) : commandOfCode code arg = .illegal code arg := by
  unfold commandOfCode
  split <;> first | rfl | (next hc => simp [namesCommand, hc] at h)

/-- Section 11.7: an operation code that names no operation. -/
theorem commandOfOperation_unknown {operation : BitVec 3} {index : BitVec 4} (h : 3 ≤ operation.toNat) :
    commandOfOperation operation index = .unknownOperation operation index := by
  unfold commandOfOperation
  split <;> first | rfl | omega

/-- Section 11.5: a write to an address that takes none. -/
theorem commandOfWrite_ignored {address : Address} {value : Word} (h : writableAddress address = false) :
    commandOfWrite address value = .registerWrite address value := by
  unfold commandOfWrite
  split <;> first | rfl | (next hc => simp [writableAddress, hc] at h)

namespace Machine

theorem execIllegal_wellFormed {code arg : BitVec 8} (h : (Instr.illegal code arg).wellFormed = true) (s : State) :
    execIllegal code arg s = s.accept (s.answer code .illegal) := by
  have : namesCommand code = false := by simpa [Instr.wellFormed] using h
  simp [execIllegal, commandOfCode_illegal this, takeWrite]

theorem execUnknownOperation_wellFormed {operation : BitVec 3} {index : BitVec 4}
    (h : (Instr.unknownOperation operation index).wellFormed = true) (s : State) :
    execUnknownOperation operation index s = s.accept (s.setSchedule (s.schedule.report operation index .arg)) := by
  have : 3 ≤ operation.toNat := by simpa [Instr.wellFormed] using h
  simp [execUnknownOperation, commandOfOperation_unknown this, takeWrite]

theorem execRegisterWrite_wellFormed {address : Address} {value : Word}
    (h : (Instr.registerWrite address value).wellFormed = true) (s : State) :
    execRegisterWrite address value s = .next s := by
  have : writableAddress address = false := by simpa [Instr.wellFormed] using h
  simp [execRegisterWrite, commandOfWrite_ignored this, takeWrite, State.accept]

/-! ## Writes -/

/-- A command word is carried out as the command its code names. -/
theorem takeWrite_commandOfCode (code arg : BitVec 8) (s : State) :
    takeWrite (commandOfCode code arg) s = exec (commandOfCode code arg) s := by
  have h : commandOfCode code arg = .illegal code arg ∨
      takeWrite (commandOfCode code arg) s = exec (commandOfCode code arg) s := by
    unfold commandOfCode
    split <;> first | exact .inl rfl | exact .inr rfl
  rcases h with h | h
  · rw [h]; simp only [exec, execIllegal, h]
  · exact h

/-- An ECTL write is carried out as the operation its code names. -/
theorem takeWrite_commandOfOperation (operation : BitVec 3) (index : BitVec 4) (s : State) :
    takeWrite (commandOfOperation operation index) s = exec (commandOfOperation operation index) s := by
  have h : commandOfOperation operation index = .unknownOperation operation index ∨
      takeWrite (commandOfOperation operation index) s = exec (commandOfOperation operation index) s := by
    unfold commandOfOperation
    split <;> first | exact .inl rfl | exact .inr rfl
  rcases h with h | h
  · rw [h]; simp only [exec, execUnknownOperation, h]
  · exact h

/-- A write of any address is carried out as the command that address makes. -/
theorem takeWrite_commandOfWrite (address : Address) (value : Word) (s : State) :
    takeWrite (commandOfWrite address value) s = exec (commandOfWrite address value) s := by
  have h : commandOfWrite address value = .registerWrite address value ∨
      takeWrite (commandOfWrite address value) s = exec (commandOfWrite address value) s := by
    unfold commandOfWrite
    split <;> first
      | exact .inl rfl
      | exact .inr (takeWrite_commandOfCode _ _ s)
      | exact .inr (takeWrite_commandOfOperation _ _ s)
      | exact .inr rfl
  rcases h with h | h
  · rw [h]; simp only [exec, execRegisterWrite, h]
  · exact h

/-! ## Fields of a word -/

/-- The bits of a field placed at bit `lo`. -/
theorem place_getLsbD {n : Nat} (v : BitVec n) (lo i : Nat) :
    (place v lo).getLsbD i = (decide (i < 16) && decide (lo ≤ i) && v.getLsbD (i - lo)) := by
  simp only [place, BitVec.getLsbD_shiftLeft, BitVec.getLsbD_setWidth]
  by_cases h : i < 16
  · by_cases h2 : i < lo
    · simp [h2, show ¬lo ≤ i by omega]
    · simp [h, h2, show lo ≤ i by omega, show i - lo < 16 by omega]
  · simp [h]

end Machine

end Sys2Proof
end

