-- ==== Sys2Proof/Laws/Invariants.lean ====
section
/-! SUPPORT. Which parts of the state each invariant looks at, and the ways the health monitor's, the group table's and the tracker's
are kept: by assessments, by a lane command, by an anchor, and at rest. -/

namespace Sys2Proof.Machine

variable {s t : State}

/-- The part state decides RUN. -/
theorem State.inRun_congr (p : t.command.partState = s.command.partState) : t.inRun = s.inRun := by
  simp [State.inRun, p]

theorem SettingsInv.congr (h : SettingsInv s) (lanes : t.laneConfig = s.laneConfig) (settle : t.table.settle = s.table.settle)
    (window : t.table.window = s.table.window) (vote : t.vote = s.vote) (health : t.healthConfig = s.healthConfig)
    (threshold : t.queue.threshold = s.queue.threshold) : SettingsInv t := by
  constructor <;> simp only [lanes, settle, window, vote, health, threshold]
  · exact h.filter
  · exact h.settle
  · exact h.window
  · exact h.tolerance
  · exact h.missWeight
  · exact h.deviantWeight
  · exact h.suspect
  · exact h.exclude
  · exact h.probation
  · exact h.readmit
  · exact h.threshold

theorem HealthInv.congr (h : HealthInv s) (p : t.command.partState = s.command.partState) (health : t.health = s.health)
    (config : t.healthConfig = s.healthConfig) : HealthInv t := by
  have r := State.inRun_congr p
  constructor <;> simp only [r, health, config]
  · exact h.lanes
  · exact h.config
  · exact h.run
  · exact h.lastVoter

theorem GroupInv.congr (h : GroupInv s) (p : t.command.partState = s.command.partState) (groups : t.table.groups = s.table.groups)
    (settle : t.table.settle = s.table.settle) (window : t.table.window = s.table.window) (health : t.health = s.health) :
    GroupInv t := by
  have r := State.inRun_congr p
  have l : t.laneStates = s.laneStates := by simp [State.laneStates, health]
  constructor <;> simp only [r, groups, l]
  · exact h.config
  · exact h.atMost
  · exact fun g hg => (h.groups g hg).of_eq window settle
  · exact h.incomplete

theorem FrontEndInv.congr (h : FrontEndInv s) (p : t.command.partState = s.command.partState) (health : t.health = s.health)
    (fronts : t.frontEnds = s.frontEnds) (lanes : t.laneConfig = s.laneConfig) : FrontEndInv t := by
  have r := State.inRun_congr p
  constructor <;> simp only [State.samples, r, health, fronts, lanes]
  · exact h.run
  · exact h.stopped

theorem TrackerInv.congr (h : TrackerInv s) (p : t.command.partState = s.command.partState) (tracker : t.tracker = s.tracker)
    (limits : t.limits = s.limits) : TrackerInv t := by
  have r := State.inRun_congr p
  constructor <;> simp only [r, tracker, limits]
  · exact h.config
  · exact h.stalled
  · exact h.held
  · exact h.period
  · exact h.origin
  · exact h.limits

theorem ScheduleInv.congr (h : ScheduleInv s) (p : t.command.partState = s.command.partState)
    (banks : ∀ bank, t.schedule.entries bank = s.schedule.entries bank) (commit : t.schedule.commit = s.schedule.commit) :
    ScheduleInv t := by
  have r := State.inRun_congr p
  constructor <;> simp only [r, banks, commit]
  · exact h.size
  · exact h.entries
  · exact h.pending

theorem ArmedInv.congr (h : ArmedInv s) (p : t.command.partState = s.command.partState) (armed : t.armed = s.armed) :
    ArmedInv t := by
  have r := State.inRun_congr p
  constructor <;> simp only [r, armed]
  · exact h.config
  · exact h.atMost
  · exact h.actions

theorem RunInv.congr (h : RunInv s) (p : t.command.partState = s.command.partState) (lanes : t.laneConfig = s.laneConfig)
    (settle : t.table.settle = s.table.settle) (window : t.table.window = s.table.window) (limits : t.limits = s.limits)
    (vote : t.vote = s.vote) (config : t.healthConfig = s.healthConfig)
    (off : ∀ l, (t.health.get l).state = .off ↔ (s.health.get l).state = .off) : RunInv t := by
  have r := State.inRun_congr p
  constructor <;> simp only [r, State.someLaneEnabled, lanes, settle, window, limits, vote, config, ne_eq, off]
  · exact h.someLane
  · exact h.window
  · exact h.limits
  · exact h.timeout
  · exact h.levels
  · exact h.tolerance
  · exact h.settle
  · exact h.enables

/-! ## Health records -/

theorem SettingsInv.healthConfigInv (h : SettingsInv s) : HealthConfigInv s.healthConfig :=
  ⟨h.suspect.1, h.exclude.1, h.probation.1, h.readmit.1⟩

theorem HealthInv.healthRunInv (h : HealthInv s) (r : s.inRun = true) : HealthRunInv s.healthConfig s.health :=
  ⟨h.lanes, (h.run r).1, (h.run r).2, h.lastVoter⟩

theorem HealthRunInv.healthInv (h : HealthRunInv s.healthConfig s.health) (r : s.inRun = true) : HealthInv s :=
  ⟨h.lanes, fun n => by simp [r] at n, fun _ => ⟨h.started, h.voter⟩, h.lastVoter⟩

/-- R66: assessments keep the invariant. -/
theorem HealthInv.assessed (h : HealthInv s) (c : SettingsInv s) (r : s.inRun = true)
    (p : t.command.partState = s.command.partState) (hc : t.healthConfig = s.healthConfig)
    (a : Assessed s.healthConfig s.health t.health) : HealthInv t := by
  have run := a.run c.healthConfigInv (h.healthRunInv r)
  rw [← hc] at run
  exact run.healthInv (by rw [State.inRun_congr p, r])

theorem HealthRecordInv.fresh {c : HealthConfig} (hc : HealthConfigInv c) {st : LaneState} (hs : st ≠ .suspect) :
    HealthRecordInv c (.fresh st) := by
  have := hc.suspect; have := hc.probation; have := hc.readmit
  constructor <;> simp_all [HealthRecord.fresh] <;> omega

theorem HealthRecord.fresh_overLimit {c : HealthConfig} (hc : HealthConfigInv c) (st : LaneState) :
    (HealthRecord.fresh st).overLimit c.exclude = false := by
  have := hc.exclude
  simp [HealthRecord.fresh, HealthRecord.overLimit]; omega

/-- R62: every lane IDLE, in CONFIG. -/
theorem HealthInv.idle (c : SettingsInv t) (r : t.inRun = false) (h : t.health = idleLanes) : HealthInv t := by
  constructor
  · intro l; rw [h]
    have := HealthRecordInv.fresh (st := .idle) c.healthConfigInv nofun
    simpa [idleLanes] using this
  · intro _ l; rw [h]; simp [idleLanes, HealthRecord.fresh]
  · simp [r]
  · intro l; rw [h]; simp [idleLanes, HealthRecord.fresh, HealthRecord.overLimit, LaneState.votes]

/-- R62: in CONFIG the records are those of IDLE lanes and no others. -/
theorem HealthInv.eq_idle (h : HealthInv s) (r : s.inRun = false) : s.health = idleLanes := by
  apply Lanes.ext; intro l
  have h1 := h.config r l
  have h2 := (h.lanes l).atRest (.inl h1)
  simp only [idleLanes, Lanes.get_build, HealthRecord.fresh]
  cases hh : s.health.get l; simp_all

/-- R60: where a lane does not vote, another does. -/
theorem HealthInv.voterElsewhere (h : HealthInv s) (r : s.inRun = true) {lane : Lane}
    (hn : (s.health.get lane).state.votes = false) : ∃ l, l ≠ lane ∧ (s.health.get l).state.votes = true := by
  obtain ⟨l, hl⟩ := (h.run r).2
  exact ⟨l, by rintro rfl; simp [hn] at hl, hl⟩

/-- R60, R158 check 1: where a lane is enabled exactly when it is not OFF, the lane that votes in RUN is enabled. -/
theorem HealthInv.someLaneEnabled (h : HealthInv s) (r : s.inRun = true)
    (e : ∀ l, (s.laneConfig.get l).enable = true ↔ (s.health.get l).state ≠ .off) : s.someLaneEnabled = true := by
  obtain ⟨l, hl⟩ := (h.run r).2
  have he := (e l).mpr (by intro ho; simp [ho, LaneState.votes] at hl)
  cases l <;> simp only [Lanes.get] at he <;> simp [State.someLaneEnabled, Lane.any, Lanes.get, he]

/-- R77 to R79: a lane command keeps the invariant where another lane votes. -/
theorem HealthInv.setFresh (h : HealthInv s) (c : SettingsInv s) (r : s.inRun = true) {lane : Lane} {st : LaneState}
    (h1 : st ≠ .suspect) (h2 : st.votes = false) (h3 : st ≠ .idle)
    (h4 : ∃ l, l ≠ lane ∧ (s.health.get l).state.votes = true) : HealthInv (s.setLaneHealth lane (.fresh st)) := by
  have hr := h.healthRunInv r
  have run : HealthRunInv s.healthConfig (s.health.set lane (.fresh st)) := by
    constructor
    · intro l; rw [Lanes.get_set]; split
      · exact .fresh c.healthConfigInv h1
      · exact h.lanes l
    · intro l; rw [Lanes.get_set]; split
      · exact h3
      · exact hr.started l
    · obtain ⟨l, a, b⟩ := h4; exact ⟨l, by rw [Lanes.get_set, if_neg a]; exact b⟩
    · intro l; rw [Lanes.get_set]; split
      · rw [HealthRecord.fresh_overLimit c.healthConfigInv]; nofun
      · intro ho; refine ⟨(h.lastVoter l ho).1, fun l' hl => ?_⟩
        rw [Lanes.get_set]; split
        · exact h2
        · exact (h.lastVoter l ho).2 l' hl
  exact HealthRunInv.healthInv (s := s.setLaneHealth lane (.fresh st)) run r

/-! ## Group table -/

theorem GroupInv.openGroups (h : GroupInv s) : OpenGroupsInv s.table s.laneStates := ⟨h.atMost, h.groups, h.incomplete⟩

theorem OpenGroupsInv.groupInv (h : OpenGroupsInv s.table s.laneStates) (r : s.inRun = true) : GroupInv s :=
  ⟨by simp [r], h.1, h.2, h.3⟩

theorem GroupInv.empty (h : s.table.groups = []) : GroupInv s := by constructor <;> simp [h]

/-! ## Tracker -/

theorem TrackerInv.trackerHeld (h : TrackerInv s) : TrackerHeld s.limits s.tracker := ⟨h.stalled, h.held, h.period, h.origin⟩

theorem TrackerHeld.trackerInv (h : TrackerHeld s.limits s.tracker) (r : s.inRun = true) (l : s.limits.inRange = true) :
    TrackerInv s := ⟨by simp [r], h.1, h.2, h.3, h.4, fun _ => l⟩

/-- R85: anchors keep the invariant. -/
theorem TrackerInv.anchored (h : TrackerInv s) (r : s.inRun = true) (p : t.command.partState = s.command.partState)
    (hl : t.limits = s.limits) (a : Anchored s.limits s.tracker t.tracker) : TrackerInv t := by
  have held := a.trackerHeld (Limits.inRange_le (h.limits r)).le h.trackerHeld
  rw [← hl] at held
  exact held.trackerInv (by rw [State.inRun_congr p, r]) (by rw [hl]; exact h.limits r)

/-- R82: nothing held, in CONFIG. -/
theorem TrackerInv.atRest (r : s.inRun = false) {n : Time} (h : s.tracker = .cleared n 0) : TrackerInv s := by
  constructor <;> simp [h, r, Tracker.cleared]

end Sys2Proof.Machine
end

