-- ==== Sys2Proof/Laws/PerInstr.lean ====
section
/-! SUPPORT. A family of statements about the commands as syntax, one lemma per constructor: a command that a bus access makes
(R155, R183, R184) is a well-formed one, and one that no access makes is none. -/

namespace Sys2Proof.Laws

theorem commandOfCode_wellFormed (code arg : BitVec 8) : (commandOfCode code arg).wellFormed = true := by
  cases h : namesCommand code with
  | false => rw [commandOfCode_illegal h]; simp [Instr.wellFormed, h]
  | true =>
    simp only [namesCommand, Bool.and_eq_true, decide_eq_true_eq] at h
    unfold commandOfCode
    split <;> first | rfl | (simp only [imp_false] at *; omega)

theorem commandOfOperation_wellFormed (operation : BitVec 3) (index : BitVec 4) :
    (commandOfOperation operation index).wellFormed = true := by
  unfold commandOfOperation
  split <;> first | rfl | (simp only [Instr.wellFormed, decide_eq_true_eq, imp_false] at *; omega)

/-- Section 11.5: whatever is written wherever, the command it makes is well formed. -/
theorem commandOfWrite_wellFormed (address : Address) (value : Word) : (commandOfWrite address value).wellFormed = true := by
  cases h : writableAddress address with
  | false => rw [commandOfWrite_ignored h]; simp [Instr.wellFormed, h]
  | true =>
    unfold commandOfWrite
    split <;> first
      | rfl
      | exact commandOfCode_wellFormed _ _
      | exact commandOfOperation_wellFormed _ _
      | (simp [writableAddress] at h; simp only [imp_false] at *; omega)

namespace AccessWellFormed

/-- What is stated of each command: if a write or a read of some location makes it, it is well formed. -/
def Statement (i : Instr) : Prop :=
  (∀ address value, commandOfWrite address value = i → i.wellFormed = true) ∧
  (∀ address, commandOfRead address = some i → i.wellFormed = true)

theorem of_access (i : Instr) (h : ∀ address, commandOfRead address = some i → i.wellFormed = true) : Statement i :=
  ⟨fun address value e => by rw [← e]; exact commandOfWrite_wellFormed address value, h⟩

theorem commandOfRead_pair {address : Address} {i : Instr} (h : commandOfRead address = some i) :
    ∃ pair, i = .pairLowRead pair ∨ i = .pairHighRead pair := by
  unfold commandOfRead at h
  split at h <;> simp only [Option.some.injEq, reduceCtorEq] at h
  · exact ⟨_, .inl h.symm⟩
  · exact ⟨_, .inr h.symm⟩

/-- A read makes a pair read or no command, and a pair read is well formed. -/
theorem of_read {i : Instr} : Statement i := of_access i fun address h => by
  obtain ⟨pair, rfl | rfl⟩ := commandOfRead_pair h <;> rfl

theorem hardReset (held : Bool) : Statement (.hardReset held) := of_read
theorem laneSample (lane : Lane) (level : Bool) : Statement (.laneSample lane level) := of_read
theorem lastAcceptedDiscard (lane : Lane) : Statement (.lastAcceptedDiscard lane) := of_read
theorem arrival (lane : Lane) (stamp : Time) : Statement (.arrival lane stamp) := of_read
theorem groupExpiry (rank : Nat) : Statement (.groupExpiry rank) := of_read
theorem stallExpiry : Statement .stallExpiry := of_read
theorem armedActionExpiry : Statement .armedActionExpiry := of_read
theorem start (arg : BitVec 8) : Statement (.start arg) := of_read
theorem stop (arg : BitVec 8) : Statement (.stop arg) := of_read
theorem softReset (arg : BitVec 8) : Statement (.softReset arg) := of_read
theorem commit (arg : BitVec 8) : Statement (.commit arg) := of_read
theorem cancelCommit (arg : BitVec 8) : Statement (.cancelCommit arg) := of_read
theorem flush (arg : BitVec 8) : Statement (.flush arg) := of_read
theorem force (arg : BitVec 8) : Statement (.force arg) := of_read
theorem laneEnable (arg : BitVec 8) : Statement (.laneEnable arg) := of_read
theorem laneDisable (arg : BitVec 8) : Statement (.laneDisable arg) := of_read
theorem laneReadmit (arg : BitVec 8) : Statement (.laneReadmit arg) := of_read
theorem ackEvent (arg : BitVec 8) (during : Option AckPlace) : Statement (.ackEvent arg during) := of_read
theorem snapshot (arg : BitVec 8) : Statement (.snapshot arg) := of_read
theorem clearCounters (arg : BitVec 8) : Statement (.clearCounters arg) := of_read
theorem illegal (code : BitVec 8) (arg : BitVec 8) : Statement (.illegal code arg) := of_read
theorem readShadow (index : BitVec 4) : Statement (.readShadow index) := of_read
theorem readActive (index : BitVec 4) : Statement (.readActive index) := of_read
theorem write (index : BitVec 4) : Statement (.write index) := of_read
theorem unknownOperation (operation : BitVec 3) (index : BitVec 4) : Statement (.unknownOperation operation index) := of_read
theorem stagingWrite (word : StagingWord) (value : Word) : Statement (.stagingWrite word value) := of_read
theorem prescaleWrite (value : Word) : Statement (.prescaleWrite value) := of_read
theorem lcfgWrite (lane : Lane) (value : Word) : Statement (.lcfgWrite lane value) := of_read
theorem blankWrite (lane : Lane) (value : Word) : Statement (.blankWrite lane value) := of_read
theorem gwinWrite (value : Word) : Statement (.gwinWrite value) := of_read
theorem votecfgWrite (value : Word) : Statement (.votecfgWrite value) := of_read
theorem hweightWrite (value : Word) : Statement (.hweightWrite value) := of_read
theorem hlevelWrite (value : Word) : Statement (.hlevelWrite value) := of_read
theorem hrunWrite (value : Word) : Statement (.hrunWrite value) := of_read
theorem qthrWrite (value : Word) : Statement (.qthrWrite value) := of_read
theorem schcfgWrite (value : Word) : Statement (.schcfgWrite value) := of_read
theorem outcfgWrite (value : Word) : Statement (.outcfgWrite value) := of_read
theorem intenWrite (value : Word) : Statement (.intenWrite value) := of_read
theorem intflagWrite (value : Word) : Statement (.intflagWrite value) := of_read
theorem busstatWrite (value : Word) : Statement (.busstatWrite value) := of_read
theorem pairHighWrite (pair : WritablePair) (value : Word) : Statement (.pairHighWrite pair value) := of_read
theorem pairLowWrite (pair : WritablePair) (value : Word) : Statement (.pairLowWrite pair value) := of_read
theorem pairLowRead (pair : Pair) : Statement (.pairLowRead pair) := of_read
theorem pairHighRead (pair : Pair) : Statement (.pairHighRead pair) := of_read
theorem registerWrite (address : Address) (value : Word) : Statement (.registerWrite address value) := of_read
theorem timebaseAdvance : Statement .timebaseAdvance := of_read

end AccessWellFormed

end Sys2Proof.Laws
end

