-- ==== Sys2Proof/Tests/Slice0.lean ====
section
/-! SUPPORT. The model's own tests: the five checks of well-formedness, one step of every command on a small state, and for every
statement with hypotheses a state and operands that meet them, clause by clause, at the ends of the ranges. -/

namespace Sys2Proof.Tests

open Sys2Proof Sys2Proof.Machine

/-! ## The states the tests start from -/

/-- A part in CONFIG that START accepts: F is 3, 1 and 2, so D will be 2; W is 20, T is 3. -/
def configured : State :=
  let lane (f : Nat) : LaneConfig := { enable := true, polarity := .rising, filter := f, blanking := 40 }
  { State.reset with
    timebase := { now := 1000, prescale := 0, divisionFrom := .advance }
    laneConfig := { a := lane 3, b := lane 1, c := lane 2 }
    table := { groups := [], seq := 7, settle := 0, window := 20 }
    vote := { tolerance := 3, singleLane := false }
    limits := { lower := 900, upper := 1100, timeout := 5000 } }

/-- The same part right after START. -/
def running : State :=
  { configured with
    table := { groups := [], seq := 0, settle := 2, window := 20 }
    health := Lanes.build fun _ => .fresh .active
    frontEnds := Lanes.build fun _ => .initial false
    tracker := .cleared 0 1000
    queue := { records := [{ seq := 0, body := .start 1000 (Lanes.build fun _ => .active) }], seq := 1, threshold := 1 }
    command := { partState := .run, entryCause := .hard, code := 1, result := .done, startError := 0 } }

/-- A state at another time. -/
def atTick (now : Time) (s : State) : State := { s with timebase := { s.timebase with now := now } }

/-- The running part with one lane's sample due and its front end as given. -/
def sampling (lane : Lane) (fe : FrontEnd) : State := atTick 2000 { running with frontEnds := running.frontEnds.set lane fe }

/-- A front end whose sample is due. -/
def due (level : Bool) (run : Option CandidateRun) (last : Option Time) : FrontEnd :=
  { level := level, run := run, lastAccepted := last, sampleDue := true }

/-- An open group of the running part: its reference time and members. -/
def group (reference : Time) (a b c : Option Time) : OpenGroup :=
  { reference := reference, members := { a := a, b := b, c := c }, deadline := reference + 22 }

/-- The running part with open groups. -/
def withGroups (groups : List OpenGroup) : State := atTick 2000 { running with table := { running.table with groups := groups } }

/-- Four open groups that each wait for lane B. -/
def fourGroups : List OpenGroup :=
  [group 1600 (some 1600) none none, group 1700 (some 1700) none none, group 1800 (some 1800) none none,
   group 1900 (some 1900) none none]

/-- The running part with lane states as given. -/
def withStates (a b c : LaneState) : State := { running with health := { a := .fresh a, b := .fresh b, c := .fresh c } }

/-- The part with RESET asserted. -/
def held : State := { State.reset with resetAsserted := true }

/-- A state with a last result. -/
def answered (code : BitVec 8) (result : CmdResult) (s : State) : State :=
  { s with command := { s.command with code := code, result := result, startError := 0 } }

/-- An enabled entry. -/
def entry (action : Action) (exponent phase : Nat) (mode : DelayMode) (delay : Nat) : Entry :=
  { enabled := true, line := .out1, action := action, exponent := exponent, phase := phase, mode := mode, delay := delay,
    width := 40 }

/-- An armed action of OUT1. -/
def armedAt (action : Action) (phase : Phase) (dueTime : Time) : ArmedAction :=
  { entry := 3, line := .out1, action := action, width := 40, due := dueTime, phase := phase, anchor := 5 }

/-- A queue of so many LANE records and, at the end, perhaps an OVERRUN record. -/
def queueOf (n : Nat) (overrun : List Word) : EventQueue :=
  { records := List.replicate n
      { seq := 0, body := .lane { lane := .a, old := .active, new := .suspect, cause := .assessment, score := 8, groupSeq := none } } ++
      overrun.map fun w => { seq := 9, body := .overrun w }
    seq := 10, threshold := 1 }

/-- A vote result with one voted time. -/
def result (voted : Option Time) (reason : CloseReason) : VoteResult :=
  { seq := 4, reason := reason, reference := 21000, offsets := { a := some 0, b := some 2, c := some 1 },
    voteClass := if voted.isSome then .full else .unvoted, votedTime := voted, spread := voted.map fun _ => 2,
    assessments := { a := .good, b := .good, c := .good } }

/-- The running part with a last anchor time. -/
def anchored (last : Time) : State :=
  { running with tracker := { running.tracker with lastAnchor := some last, refPeriod := some 1000, anchorCount := 5, origin := last } }

/-! ## Well-formedness -/

theorem test_wellFormed_refuses_rank_zero : (Instr.groupExpiry 0).wellFormed = false := by decide

theorem test_wellFormed_refuses_rank_five : (Instr.groupExpiry 5).wellFormed = false := by decide

theorem test_wellFormed_refuses_an_event_of_rank_five : (Instr.ackEvent 0 (some ⟨.groupExpiry 5, 0, []⟩)).wellFormed = false := by
  decide

theorem test_wellFormed_takes_the_four_ranks : ∀ rank ∈ [1, 2, 3, 4], (Instr.groupExpiry rank).wellFormed = true := by decide

theorem test_wellFormed_refuses_a_code_that_names_a_command :
    (Instr.illegal 0x01 0).wellFormed = false ∧ (Instr.illegal 0x0D 0).wellFormed = false := by decide

theorem test_wellFormed_refuses_an_operation_that_is_one : (Instr.unknownOperation 2 0).wellFormed = false := by decide

theorem test_wellFormed_refuses_a_writable_address :
    (Instr.registerWrite 0x01 0).wellFormed = false ∧ (Instr.registerWrite 0x48 0).wellFormed = false := by decide

/-- What the map makes of a write is always well formed, at every address. -/
theorem test_commandOfWrite_wellFormed : ∀ address : Address, (commandOfWrite address 0xFFFF).wellFormed = true := by decide

/-- No table row gives bits, so the host's word leaves the queue as it is. -/
theorem test_withFetchWord : running.withFetchWord 16 0x0100 = running := by rfl

/-! ## One step of every command -/

theorem test_hardReset : exec (.hardReset false) running = .next State.reset := by rfl

/-- While RESET is asserted no access and no event is taken, and no pin shows its latch or safe level (R168). -/
theorem test_hardReset_held :
    exec (.hardReset true) running = .next held ∧ exec (.qthrWrite 4) held = .next held ∧
    exec .timebaseAdvance held = .next held ∧ exec (.pairLowRead .tbase) held = .next held ∧
    exec (.hardReset false) held = .next State.reset := ⟨by rfl, by rfl, by rfl, by rfl, by rfl⟩

theorem test_laneSample_breaks_the_run : exec (.laneSample .a false) (sampling .a (due false (some ⟨2, 1998⟩) none)) = .next
    { running with
      timebase := { running.timebase with now := 2000 }
      stats := { running.stats with live := { Counters.zero with lanes := (Counters.zero.lanes.set .a
        { accepted := 0, glitches := 1, blanked := 0, deviant := 0, missing := 0 }) } } } := by rfl

theorem test_laneSample_opens_a_group : exec (.laneSample .a true) (sampling .a (due false (some ⟨2, 1998⟩) none)) = .next
    { withGroups [group 1998 (some 1998) none none] with
      lanePins := { a := true, b := false, c := false }
      frontEnds := running.frontEnds.set .a { level := true, run := none, lastAccepted := some 1998, sampleDue := false }
      stats := { running.stats with live := { Counters.zero with lanes := (Counters.zero.lanes.set .a
        { accepted := 1, glitches := 0, blanked := 0, deviant := 0, missing := 0 }) } } } := by rfl

theorem test_lastAcceptedDiscard :
    exec (.lastAcceptedDiscard .b) (atTick 67552 { running with frontEnds := (running.frontEnds.set .b
      { FrontEnd.initial true with lastAccepted := some 2000 }) }) =
    .next (atTick 67552 { running with frontEnds := running.frontEnds.set .b (FrontEnd.initial true) }) := by rfl

theorem test_arrival_joins : exec (.arrival .c 2001) (withGroups [group 2000 (some 2000) none none]) =
    .next (withGroups [group 2000 (some 2000) none (some 2001)]) := by rfl

theorem test_groupExpiry_waits_for_its_deadline :
    exec (.groupExpiry 1) (atTick 2022 (withGroups [group 2000 (some 2000) none none])) =
    .next (atTick 2022 (withGroups [group 2000 (some 2000) none none])) := by rfl

/-- One voter without the single-lane option makes the group UNVOTED; the two absent lanes are MISSING, since there is a voter. -/
theorem test_groupExpiry_charges_the_absent :
    (match exec (.groupExpiry 1) (atTick 2023 (withGroups [group 2000 (some 2000) none none])) with
      | .next t => (t.table.groups.length, t.table.seq, t.stats.live.expired, t.stats.live.unvoted,
          (t.health.get .b).score, (t.health.get .c).score)
      | .fault _ | .refused _ => (9, 0, 0, 0, 0, 0)) = (0, 1, 1, 1, 2, 2) := by decide

theorem test_stallExpiry : exec .stallExpiry (atTick 6000 running) = .next
    { atTick 6000 running with
      tracker := { running.tracker with stall := .stalled }
      queue := { running.queue with records := running.queue.records ++ [{ seq := 1, body := .stall 6000 none }], seq := 2 }
      interrupt := { running.interrupt with flags := { Flags.clear with stall := true } } } := by rfl

theorem test_armedActionExpiry : exec .armedActionExpiry { running with armed := [armedAt .pulseHigh .leading 1000] } = .next
    { running with
      armed := [armedAt .pulseHigh .trailing 1040]
      output := { running.output with latch := { running.output.latch with out1 := true } } } := by rfl

theorem test_start : exec (.start 0) configured = .next running := by rfl

theorem test_start_refused : exec (.start 0) State.reset = .next
    { State.reset with command := { State.reset.command with code := 1, result := .arg, startError := 1 } } := by rfl

theorem test_stop : exec (.stop 0) { running with armed := [armedAt .set .leading 9000] } = .next
    { running with
      health := Lanes.build fun _ => .fresh .idle
      frontEnds := Lanes.build fun _ => .stopped
      tracker := .cleared 0 0
      queue := { running.queue with records := running.queue.records ++ [{ seq := 1, body := .stop 1000 0 1 }], seq := 2 }
      command := { partState := .config, entryCause := .stop, code := 2, result := .done, startError := 0 } } := by rfl

theorem test_softReset : exec (.softReset 0) running = .next
    { configured with
      table := { groups := [], seq := 0, settle := 0, window := 20 }
      command := { partState := .config, entryCause := .soft, code := 0, result := .none, startError := 0 } } := by rfl

theorem test_commit_waits_in_run : exec (.commit 0) running = .next
    { answered 4 .pending running with schedule := { running.schedule with commit := .pending } } := by rfl

theorem test_commit_exchanges_in_config : exec (.commit 0) configured = .next
    { answered 4 .done configured with schedule := { configured.schedule with active := .b, commit := .done } } := by rfl

theorem test_cancelCommit : exec (.cancelCommit 0) { running with schedule := { running.schedule with commit := .pending } } = .next
    { answered 5 .done running with schedule := { running.schedule with commit := .cancelled } } := by rfl

theorem test_flush : exec (.flush 0xF2) { running with armed := [armedAt .set .leading 9000] } =
    .next (answered 6 .done running) := by rfl

theorem test_flush_of_other_lines : exec (.flush 0x0D) { running with armed := [armedAt .set .leading 9000] } =
    .next (answered 6 .done { running with armed := [armedAt .set .leading 9000] }) := by rfl

theorem test_force_toggles : exec (.force 0x21) running = .next
    { answered 7 .done running with output := { running.output with latch := { running.output.latch with out1 := true } } } := by rfl

theorem test_force_takes_no_pulse : exec (.force 0x31) running = .next (answered 7 .arg running) := by rfl

theorem test_laneEnable : exec (.laneEnable 3) running = .next (answered 8 .arg running) := by rfl

theorem test_laneDisable_spares_the_last_voter :
    exec (.laneDisable 0) (withStates .active .off .probation) =
    .next (answered 9 .state (withStates .active .off .probation)) := by rfl

theorem test_laneReadmit : exec (.laneReadmit 2) (withStates .active .active .excluded) = .next
    { answered 0x0A .done (withStates .active .active .probation) with
      queue := { running.queue with
        records := running.queue.records ++ [{ seq := 1, body := (.lane
          { lane := .c, old := .excluded, new := .probation, cause := .readmit, score := 0, groupSeq := none }) }]
        seq := 2 }
      interrupt := { running.interrupt with flags := { Flags.clear with lane := true } } } := by rfl

theorem test_ackEvent : exec (.ackEvent 0 none) running = .next
    { answered 0x0B .done running with queue := { running.queue with records := [] } } := by rfl

theorem test_ackEvent_on_an_empty_queue : exec (.ackEvent 0 none) configured = .next (answered 0x0B .state configured) := by rfl

/-- A part about to close a group with two offers, a LANE and a GROUP record, behind 30 records and an OVERRUN tail. -/
def closingFull : State :=
  { atTick 2023 (withGroups [group 2000 (some 2000) none none]) with
    queue := queueOf 30 [5]
    health := running.health.set .b { state := .active, score := 7, goodRun := 0, mark := false } }

/-- R109: an ACK EVENT before both offers, between them, and behind both: the records held, the kind of the tail, and the dropped count
that was 5. -/
theorem test_ackEvent_within_an_act :
    [0, 1, 2].map (fun n =>
      match exec (.ackEvent 0 (some ⟨.groupExpiry 1, n, []⟩)) closingFull with
      | .next t => (t.queue.records.length, t.queue.records.getLast?.map Record.isOverrun,
          t.queue.records.filterMap fun r => match r.body with | .overrun w => some w | _ => none)
      | .fault _ | .refused _ => (0, none, [])) =
    [(32, some true, [5, 1]), (31, some false, [6]), (30, some true, [7])] := by decide

theorem test_snapshot : exec (.snapshot 0) running = .next
    { answered 0x0C .done running with stats := { running.stats with time := 1000, taken := true } } := by rfl

theorem test_clearCounters :
    exec (.clearCounters 0) { running with stats := { running.stats with live := { Counters.zero with missed := 3 } } } =
    .next (answered 0x0D .done running) := by rfl

theorem test_illegal : exec (.illegal 0x0E 0) running = .next (answered 0x0E .illegal running) := by rfl

theorem test_readShadow : exec (.readShadow 12) configured = .next
    { configured with schedule := { configured.schedule with index := 12, entryResult := .arg } } := by rfl

theorem test_readActive : exec (.readActive 11) configured = .next
    { configured with schedule := { configured.schedule with index := 11, operation := 1, entryResult := .done } } := by rfl

/-- Section 12.1, step 4, as the host writes it: entry 0 of the shadow bank, bank B. -/
theorem test_write :
    (match exec (commandOfWrite 0x44 0x0020) { configured with schedule := { configured.schedule with
        staging := { enabled := true, line := .out0, action := 3, exponent := 0, mode := .ticks, phase := 0, delayHigh := 0,
                     delayLow := 250, width := 40 } } } with
      | .next t => (t.schedule.entryResult, t.schedule.bankB.head?, decide (t.schedule.bankA = configured.schedule.bankA))
      | .fault _ | .refused _ => (.arg, none, false)) =
    (.done, some { enabled := true, line := .out0, action := .pulseHigh, exponent := 0, phase := 0, mode := .ticks, delay := 250,
                   width := 40 }, true) := by decide

theorem test_unknownOperation : exec (.unknownOperation 7 2) configured = .next
    { configured with schedule := { configured.schedule with index := 2, operation := 7, entryResult := .arg } } := by rfl

/-- Section 12.1, steps 4 and 5: the words as written and the fields they carry. -/
theorem test_stagingWrite :
    exec (.stagingWrite .estg0 0x0031) configured = .next { configured with schedule := { configured.schedule with
      staging := { Staging.cleared with enabled := true, action := 3 } } } ∧
    (Staging.cleared.write .estg0 0x0803).read .estg0 = 0x0803 ∧
    (Staging.cleared.write .estg0 0x0803).mode = .fraction := ⟨by rfl, by decide⟩

theorem test_prescaleWrite : exec (.prescaleWrite 7) configured = .next
    { configured with timebase := { now := 1000, prescale := 7, divisionFrom := .restart } } := by rfl

theorem test_lcfgWrite : exec (.lcfgWrite .b 0x0105) configured = .next
    { configured with laneConfig := { configured.laneConfig with
        b := { enable := true, polarity := .both, filter := 16, blanking := 40 } } } := by rfl

theorem test_blankWrite : exec (.blankWrite .c 0xFFFF) configured = .next
    { configured with laneConfig := { configured.laneConfig with
        c := { enable := true, polarity := .rising, filter := 2, blanking := 65535 } } } := by rfl

theorem test_gwinWrite : exec (.gwinWrite 0x7FFF) configured = .next
    { configured with table := { configured.table with window := 32767 } } := by rfl

theorem test_votecfgWrite : exec (.votecfgWrite 0x8003) configured = .next
    { configured with vote := { tolerance := 3, singleLane := true } } := by rfl

theorem test_hweightWrite : exec (.hweightWrite 0x01F1) configured = .next
    { configured with healthConfig := { configured.healthConfig with missWeight := 1, deviantWeight := 15, autoReadmit := true } } := by
  rfl

theorem test_hlevelWrite : exec (.hlevelWrite 0x3F01) configured = .next
    { configured with healthConfig := { configured.healthConfig with suspect := 1, exclude := 63 } } := by rfl

theorem test_hrunWrite : exec (.hrunWrite 0xFF01) configured = .next
    { configured with healthConfig := { configured.healthConfig with probation := 1, readmit := 255 } } := by rfl

theorem test_qthrWrite : exec (.qthrWrite 32) configured = .next
    { configured with queue := { configured.queue with threshold := 32 } } := by rfl

theorem test_schcfgWrite : exec (.schcfgWrite 1) configured = .next
    { configured with schedule := { configured.schedule with latePolicy := .execute } } := by rfl

theorem test_outcfgWrite : exec (.outcfgWrite 0x0012) running = .next
    { running with output := { running.output with
        enable := { out0 := false, out1 := true, out2 := false, out3 := false }
        safe := { out0 := true, out1 := false, out2 := false, out3 := false } } } := by rfl

theorem test_intenWrite : exec (.intenWrite 0x01AF) running = .next
    { running with interrupt := { running.interrupt with enables := 0xAF } } := by rfl

theorem test_intflagWrite :
    exec (.intflagWrite 0x0003) { running with interrupt := { running.interrupt with flags := { Flags.clear with lane := true } } } =
    .next running := by rfl

theorem test_busstatWrite :
    exec (.busstatWrite 0x0001) { running with window := { running.window with busStatus := { BusStatus.clear with order := true } } } =
    .next running := by rfl

theorem test_pairHighWrite : exec (.pairHighWrite .pmax 5) running = .next
    { running with window := { running.window with writeValue := 5, writeTag := some .pmax } } := by rfl

theorem test_pairLowWrite :
    exec (.pairLowWrite .pmax 0x04B0) { running with window := { running.window with writeTag := some .pmax } } =
    .next { running with limits := { running.limits with upper := 1200 } } := by rfl

theorem test_pairLowRead : exec (.pairLowRead .tbase) (atTick 0x00012345 running) = .next
    { atTick 0x00012345 running with window := { running.window with readValue := 1, readTag := some .tbase, readData := 0x2345 } } := by
  rfl

theorem test_pairHighRead :
    exec (.pairHighRead .tbase) { running with window := { running.window with readValue := 1, readTag := some .tbase } } =
    .next { running with window := { running.window with readValue := 1, readData := 1 } } := by rfl

theorem test_registerWrite : exec (.registerWrite 0x7F 0xFFFF) running = .next running := by rfl

theorem test_timebaseAdvance : exec .timebaseAdvance (atTick 0xFFFFFFFF configured) = .next (atTick 0 configured) := by rfl

/-! ## What the statements' hypotheses are met by

One theorem for each statement that has hypotheses, named after it; its conjuncts follow the statement's clauses. A hypothesis that
only names a value (`r = …`, `u = …`) is met by that value and has no conjunct of its own. -/

theorem test_witness_HardResetReadsTheMapValues :
    [0x0A, 0x0B, 0x0C, 0x15, 0x16, 0x17, 0x2E, 0x43, 0x00, 0x7F].map State.reset.readAddress =
      [0x0010, 0x0010, 0x0010, 0x0032, 0x1008, 0x2010, 0x0001, 0x0001, 0, 0] := by decide

theorem test_witness_StepTakesTheFrontCommand :
    { running with pending := [.commit 0, .flush 1] }.pending = .commit 0 :: [.flush 1] ∧ running.pending = [] := by decide

/-! Every invariant holds in `running`, a state of RUN, and a step is taken from it. -/

theorem running_settings : SettingsInv running where
  filter l := by cases l <;> decide
  settle := by decide
  window := by decide
  tolerance := by decide
  missWeight := by decide
  deviantWeight := by decide
  suspect := by decide
  exclude := by decide
  probation := by decide
  readmit := by decide
  threshold := by decide

theorem running_queue : QueueInv running.queue :=
  (QueueInv.empty 0 1 [] .none).append (.start 1000 (Lanes.build fun _ => .active)) (by decide) (by decide) nofun

theorem running_health : HealthInv running where
  lanes l := by
    cases l <;> exact
      { score := by decide, goodRun := by decide, atRest := by decide, voting := by decide, active := by decide
        suspect := by decide, probation := by decide, excluded := by decide, mark := by decide }
  config h := absurd h (by decide)
  run _ := ⟨fun l => by cases l <;> decide, .a, by decide⟩
  lastVoter l h := by cases l <;> exact absurd h (by decide)

theorem running_groups : GroupInv { running with table := { running.table with groups := [group 2000 (some 2000) none none] } } where
  config := by decide
  atMost := by decide
  groups g hg := by
    obtain rfl : g = group 2000 (some 2000) none none := by simpa using hg
    exact { deadline := by decide
            members := fun l t h => by cases l <;> simp_all [group, Lanes.get, withinWindow]
            opener := ⟨.a, by decide⟩ }
  incomplete := by decide

theorem running_tracker : TrackerInv (anchored 1000) where
  config := by decide
  stalled := by decide
  held := by decide
  period p h := by
    obtain rfl : 1000 = p := by simpa [anchored] using h
    decide
  origin t h := by simpa [anchored] using h
  limits := by decide

theorem running_schedule : ScheduleInv running where
  size bank := by cases bank <;> decide
  entries bank := by cases bank <;> decide
  pending := by decide

theorem running_armed : ArmedInv { running with armed := [armedAt .pulseLow .trailing 1040] } where
  config := by decide
  atMost := by decide
  actions x hx := by
    obtain rfl : x = armedAt .pulseLow .trailing 1040 := by simpa using hx
    exact { entry := by decide, width := by decide, trailing := by decide }

theorem running_frontEnds : FrontEndInv (sampling .a (due false (some ⟨2, 1998⟩) none)) where
  run l r h := by
    cases l
    · obtain rfl : ⟨2, 1998⟩ = r := by simpa [sampling, due, atTick, Lanes.get, Lanes.set] using h
      decide
    · exact absurd h (by simp [sampling, atTick, running, Lanes.get, Lanes.set, Lanes.build, FrontEnd.initial])
    · exact absurd h (by simp [sampling, atTick, running, Lanes.get, Lanes.set, Lanes.build, FrontEnd.initial])
  stopped l h := by cases l <;> exact absurd h (by decide)

theorem running_run : RunInv running where
  someLane := by decide
  window := by decide
  limits := by decide
  timeout := by decide
  levels := by decide
  tolerance := by decide
  settle := by decide
  enables _ l := by cases l <;> decide

theorem test_witness_StepKeepsTheEventQueue :
    running.queue.acks = [] ∧ QueueInv running.queue ∧ step { running with pending := [.commit 0] } = .next
      { answered 4 .pending running with schedule := { running.schedule with commit := .pending } } :=
  ⟨by decide, running_queue, by rfl⟩

theorem test_witness_StepKeepsAVotingLane : SettingsInv running ∧ HealthInv running ∧ step running = .next running :=
  ⟨running_settings, running_health, by rfl⟩

theorem test_witness_StepKeepsTheGroupTable :
    ∃ s, GroupInv s ∧ s.table.groups.length = 1 ∧ step s = .next s := ⟨_, running_groups, by decide, by rfl⟩

theorem test_witness_StepKeepsTheTracker :
    TrackerInv (anchored 1000) ∧ (anchored 1000).tracker.refPeriod = some 1000 ∧ step (anchored 1000) = .next (anchored 1000) :=
  ⟨running_tracker, by decide, by rfl⟩

theorem test_witness_StepKeepsTheScheduleAndTheArmedList :
    ∃ s, ScheduleInv s ∧ ArmedInv s ∧ s.armed.length = 1 ∧ step s = .next s :=
  ⟨{ running with armed := [armedAt .pulseLow .trailing 1040] },
   ⟨running_schedule.size, running_schedule.entries, running_schedule.pending⟩, running_armed, by decide, by rfl⟩

theorem test_witness_StepKeepsTheFrontEnds :
    ∃ s, SettingsInv s ∧ FrontEndInv s ∧ (s.frontEnds.get .a).run = some ⟨2, 1998⟩ ∧ step s = .next s :=
  ⟨sampling .a (due false (some ⟨2, 1998⟩) none), ⟨running_settings.filter, by decide, by decide, by decide, by decide, by decide,
    by decide, by decide, by decide, by decide, by decide⟩, running_frontEnds, by decide, by rfl⟩

theorem test_witness_StepKeepsTheSettings :
    SettingsInv running ∧ HealthInv running ∧ RunInv running ∧ step running = .next running ∧
    (HeldInv held ∧ held.resetAsserted = true ∧ step { held with pending := [.qthrWrite 4] } = .next held) :=
  ⟨running_settings, running_health, running_run, by rfl, fun _ => by rfl, by decide, by rfl⟩

/-! Lane inputs. Lane A has F = 3, lane B F = 1; the blanking interval is 40. -/

theorem test_witness_SampleShortOfAConfirmation :
    held.resetAsserted = true ∧ (running.resetAsserted = false ∧ configured.resetAsserted = false) ∧
    (configured.samples .a = false ∧ (running.frontEnds.get .a).sampleDue = false) ∧
    (∀ run ∈ [none, some ⟨1, 1999⟩, some ⟨2, 1998⟩],
      (sampling .a (due false run none)).samples .a = true ∧
      (sampling .a (due false run none)).frontEnds.get .a = due false run none ∧ (due false run none).sampleDue = true) ∧
    ((due false none none).run = none ∧ (due false (some ⟨2, 1998⟩) none).run = some ⟨2, 1998⟩) ∧
    (running.laneConfig.get .a).filter ≠ 1 ∧ 1 + 1 ≠ (running.laneConfig.get .a).filter := by decide

theorem test_witness_SampleConfirmsATransition :
    (running.resetAsserted = false ∧ configured.resetAsserted = false) ∧
    ((sampling .b (due false none none)).samples .b = true ∧
      (sampling .b (due false none none)).frontEnds.get .b = due false none none ∧
      ((sampling .b (due false none none)).laneConfig.get .b).filter = 1 ∧
      (sampling .b (due false none none)).timebase.now = 2000) ∧
    ((due false (some ⟨2, 1998⟩) none).run = some ⟨2, 1998⟩ ∧ 2 + 1 = (running.laneConfig.get .a).filter) ∧
    ((running.laneConfig.get .b).polarity = .rising ∧ (running.laneConfig.get .b).polarity ≠ .both) ∧
    ((2000 : Time) - 1961).toNat < (running.laneConfig.get .b).blanking.toNat ∧
    (running.laneConfig.get .b).blanking.toNat ≤ ((2000 : Time) - 1960).toNat := by decide

theorem test_witness_LastAcceptedEdgeIsDiscarded :
    ∀ last ∈ [(2000 : Time), 2001], ∃ s : State, s.resetAsserted = false ∧ (s.frontEnds.get .b).lastAccepted = some last ∧
      (last = 2000 → s.timebase.now = last + 65552) ∧ (last = 2001 → s.timebase.now ≠ last + 65552) ∧
      (s.frontEnds.get .a).lastAccepted = none :=
  fun last _ => ⟨atTick 67552 { running with
      frontEnds := (running.frontEnds.set .b { FrontEnd.initial true with lastAccepted := some last }) },
    rfl, rfl, by rintro rfl; decide, by rintro rfl; decide, rfl⟩

/-! Edge groups. W is 20. -/

theorem test_witness_ArrivalJoinsTheOldestCandidate :
    (withGroups fourGroups).table.groups = [group 1600 (some 1600) none none] ++ group 1700 (some 1700) none none ::
      [group 1800 (some 1800) none none, group 1900 (some 1900) none none] ∧
    (∀ x ∈ [group 1600 (some 1600) none none], ¬((x.members.get .b).isNone = true ∧
      (((1720 : Time) - x.reference).toNat ≤ 20 ∨ (x.reference - (1720 : Time)).toNat ≤ 20))) ∧
    (group 1700 (some 1700) none none).members.get .b = none ∧
    (∀ stamp ∈ [1680, 1720], ((BitVec.ofNat 32 stamp) - (group 1700 (some 1700) none none).reference).toNat ≤ 20 ∨
      ((group 1700 (some 1700) none none).reference - (BitVec.ofNat 32 stamp)).toNat ≤ 20) ∧
    ((running.health.get .c).state.waits = true ∧ Lane.c ≠ Lane.b ∧ (group 1700 (some 1700) none none).members.get .c = none) := by
  decide

theorem test_witness_ArrivalCompletesItsGroup : ∀ l, (running.health.get l).state.waits = true → l ≠ .b →
    (group 2000 (some 2000) none (some 2001)).members.get l ≠ none := by
  intro l; cases l <;> decide

theorem test_witness_ArrivalWithNoCandidateOpensAGroup :
    (∀ x ∈ fourGroups, ¬((x.members.get .b).isNone = true ∧
      (((1921 : Time) - x.reference).toNat ≤ 20 ∨ (x.reference - (1921 : Time)).toNat ≤ 20))) ∧
    (withGroups (fourGroups.drop 1)).table.groups.length < 4 ∧
    ((withGroups fourGroups).table.groups = group 1600 (some 1600) none none :: fourGroups.drop 1 ∧
      (fourGroups.drop 1).length = 3) ∧
    (State.closeGroup (withGroups (fourGroups.drop 1)) .evicted (group 1600 (some 1600) none none)).table.groups =
      fourGroups.drop 1 ∧
    (Lane.c ≠ Lane.b ∧ (running.health.get .c).state.waits = true) := by decide

theorem test_witness_ArrivalFromTheOnlyWaitingLane :
    ∀ l, l ≠ .b → ((withStates .off .active .off).health.get l).state.waits = false := by
  intro l; cases l <;> decide

theorem test_witness_ArrivalGives :
    running.resetAsserted = false ∧ running.samples .b = true ∧ (running.frontEnds.get .b).lastAccepted ≠ some 1921 := by decide

theorem test_witness_GroupExpiresAfterItsDeadline :
    (running.resetAsserted = false ∧ configured.resetAsserted = false) ∧
    running.command.partState = .run ∧ configured.command.partState = .config ∧
    (withGroups fourGroups).table.groups[4 - 1]? = some (group 1900 (some 1900) none none) ∧
    later 1923 (group 1900 (some 1900) none none).deadline = true ∧
    notLater 1922 (group 1900 (some 1900) none none).deadline = true ∧
    (withGroups fourGroups).table.groups.length < 5 := by decide

theorem test_witness_ArrivalAndExpiryFrame :
    (∃ t, exec (.arrival .b 1921) (withGroups fourGroups) = .next t) ∧ (∃ t, exec (.groupExpiry 1) running = .next t) ∧
    configured.samples .b = false ∧ ((sampling .b (due true none (some 1999))).frontEnds.get .b).lastAccepted = some 1999 :=
  ⟨⟨_, rfl⟩, ⟨_, rfl⟩, by decide, by decide⟩

/-! The vote. -/

theorem test_witness_OffsetOfAMemberLiesInTheWindow :
    ((32766 : Time) - 0xFFFFFFFF).toNat ≤ 32767 ∧ ((32766 : Time) - 0xFFFFFFFF).toNat = 32767 ∧
    memberOffset 0xFFFFFFFF 32766 = 32767 ∧ memberOffset 32766 0xFFFFFFFF = -32767 := by decide

/-- A ballot of members at the given offsets, with T = 3. -/
def ballot (a b c : Option Int) (sa sb sc : LaneState) : Ballot :=
  { offsets := { a := a, b := b, c := c }, states := { a := sa, b := sb, c := sc }, config := { tolerance := 3, singleLane := false } }

theorem test_witness_VotersDecideTheClassAndTheVotedOffset :
    (ballot (some 2) (some 0) (some 1) .active .suspect .active).voters.Perm [0, 1, 2] ∧
    (∀ y ∈ [(3 : Int), 4], (ballot (some y) (some 0) (some 9) .active .active .excluded).voters.Perm [0, y]) ∧
    ((ballot (some 3) (some 0) (some 9) .active .active .excluded).verdict.voteClass = .pair ∧
      (ballot (some 4) (some 0) (some 9) .active .active .excluded).verdict.voteClass = .split) ∧
    (ballot (some 5) none (some 9) .active .active .excluded).voters = [5] ∧
    (ballot none none (some 9) .active .active .excluded).voters = [] := by decide

/-- Section 3.6's split with an observer at 7: A at 0 is the farther one. At 4 the two are equally far. -/
theorem test_witness_EveryLaneIsAssessed :
    ((ballot (some 0) (some 8) (some 7) .active .active .excluded).verdict.voteClass = .split ∧
      (ballot (some 0) (some 8) (some 7) .active .active .excluded).voterOffset .a = some 0 ∧
      (ballot (some 0) (some 8) (some 7) .active .active .excluded).voterOffset .b = some 8 ∧
      (ballot (some 0) (some 8) (some 7) .active .active .excluded).observerOffset .c = some 7 ∧
      (8 - 7 : Int).natAbs < (0 - 7 : Int).natAbs) ∧
    ((ballot (some 0) (some 8) (some 4) .active .active .excluded).observerOffset .c = some 4 ∧
      (0 - 4 : Int).natAbs = (8 - 4 : Int).natAbs) ∧
    ((ballot (some 0) (some 8) none .active .active .off).verdict.voteClass = .split ∧
      (ballot (some 0) (some 8) none .active .active .off).observers = [] ∧
      (ballot (some 0) (some 8) none .active .active .off).states.get .c = .off) ∧
    ((ballot (some 0) (some 3) none .active .active .active).offsets.get .c = none ∧
      (ballot none none (some 3) .active .active .excluded).voters = [] ∧
      (ballot none none (some 3) .active .active .excluded).verdict.voteClass = .unvoted) ∧
    ((ballot (some 0) (some 3) (some 5) .active .active .excluded).verdict.offset = some 1 ∧
      (ballot (some 0) (some 3) (some 5) .active .active .excluded).verdict.voteClass ≠ .split ∧
      (ballot (some 0) (some 3) (some 5) .active .active .excluded).assess .complete .c = .deviant ∧
      (ballot (some 0) (some 3) (some 4) .active .active .excluded).assess .complete .c = .good) := by decide

/-! Lane health. -/

theorem test_witness_PassOneActsOnOneLane :
    (1 ≤ running.healthConfig.suspect ∧ (running.health.get .a).score ≤ 63 ∧ (running.health.get .a).state = .active ∧
      (running.health.get .a).score < running.healthConfig.suspect) ∧
    (passOne running.healthConfig .missing { state := .active, score := 6, goodRun := 0, mark := false } =
        { state := .suspect, score := 8, goodRun := 0, mark := false } ∧
      passOne running.healthConfig .good { state := .suspect, score := 1, goodRun := 0, mark := false } =
        { state := .active, score := 0, goodRun := 0, mark := false } ∧
      passOne running.healthConfig .deviant { state := .suspect, score := 61, goodRun := 0, mark := true } =
        { state := .suspect, score := 63, goodRun := 0, mark := true }) ∧
    ((withStates .probation .excluded .off).health.get .a).state = .probation ∧
    ((withStates .probation .excluded .off).health.get .b).state = .excluded ∧
    ((withStates .probation .excluded .off).health.get .c).state = .off ∧
    (15 < 255 ∧ 15 + 1 = running.healthConfig.probation ∧ ((withStates .probation .excluded .off).health.get .b).mark = false) := by decide

/-- Two SUSPECT lanes and a PROBATION lane, with Te = 16. -/
def scored (a b : Nat) : Lanes HealthRecord :=
  { a := { state := .suspect, score := a, goodRun := 0, mark := false }
    b := { state := .suspect, score := b, goodRun := 0, mark := false }
    c := { state := .probation, score := 0, goodRun := 3, mark := false } }

theorem test_witness_PassTwoExcludesAllButTheLastVoter :
    (∃ l, ((scored 16 15).get l).state.votes = true ∧ ((scored 16 15).get l).score < 16) ∧ 16 ≤ ((scored 16 15).get .a).score ∧
    ((∀ l, ((scored 16 16).get l).state.votes = true → 16 ≤ ((scored 16 16).get l).score) ∧
      ∀ l, ((scored 16 16).get l).state.votes = true → l ≠ .a →
        ((scored 16 16).get .a).score < ((scored 16 16).get l).score ∨
        ((scored 16 16).get .a).score = ((scored 16 16).get l).score ∧ (laneCode .a).toNat < (laneCode l).toNat) ∧
    passTwo 16 (scored 16 16) =
      { scored 16 16 with
        a := { state := .suspect, score := 16, goodRun := 0, mark := true }
        b := { state := .excluded, score := 16, goodRun := 0, mark := false } } :=
  ⟨⟨.b, by decide⟩, by decide, ⟨fun l => by cases l <;> decide, fun l => by cases l <;> decide⟩, by decide⟩

/-! Period, limits and stall. The limits are 900 and 1,100, S is 5,000. -/

theorem test_witness_GroupThatIsNoAnchorLeavesTheTracker :
    (result (some 21001) .stopped).reason = .stopped ∧ (result none .complete).votedTime = none ∧
    (result (some 21001) .complete).reason ≠ .stopped ∧ (result (some 21001) .complete).votedTime = some 21001 ∧
    (anchored 21001).tracker.lastAnchor = some 21001 ∧ notLater 21001 21001 = true := by decide

theorem test_witness_AnchorMeasuresLimitsAndNotifies :
    (running.tracker.lastAnchor = none ∧ running.tracker.refPeriod = none) ∧
    (∀ last ∈ [20102, 20101, 19901, 19900], (anchored (BitVec.ofNat 32 last)).tracker.lastAnchor = some (BitVec.ofNat 32 last) ∧ later 21001 (BitVec.ofNat 32 last) = true) ∧
    ((21001 - 20102 : Time).toNat < running.limits.lower.toNat ∧ (21001 - 20101 : Time).toNat = running.limits.lower.toNat ∧
      (21001 - 19901 : Time).toNat = running.limits.upper.toNat ∧ running.limits.upper.toNat < (21001 - 19900 : Time).toNat) := by
  decide

theorem test_witness_StallDiscardsThePeriod :
    (running.resetAsserted = false ∧ configured.resetAsserted = false) ∧
    (running.command.partState = .run ∧ running.tracker.stall = .watching) ∧
    running.limits.timeout.toNat ≤ ((atTick 6000 running).timebase.now - running.tracker.origin).toNat ∧
    ((atTick 5999 running).timebase.now - running.tracker.origin).toNat < running.limits.timeout.toNat ∧
    configured.command.partState = .config := by decide

theorem test_witness_LimitWriteIsCheckedInRunAndReclamps :
    (running.resetAsserted = false ∧ configured.resetAsserted = false) ∧
    (WritablePair.pmin ≠ .stallto ∧ WritablePair.pmax ≠ .stallto) ∧
    ({ running with window := { running.window with writeTag := some .pmin } }.window.writeTag = some .pmin) ∧
    (∀ v ∈ [1, 1099], 1 ≤ (BitVec.ofNat 32 v).toNat ∧ (BitVec.ofNat 32 v).toNat < running.limits.upper.toNat) ∧
    (∀ v ∈ [0, 1100], ¬(1 ≤ (BitVec.ofNat 32 v).toNat ∧ (BitVec.ofNat 32 v).toNat < running.limits.upper.toNat)) ∧
    (∀ v ∈ [901, 0x0FFFFFFF], running.limits.lower.toNat < (BitVec.ofNat 32 v).toNat ∧ (BitVec.ofNat 32 v).toNat < 2 ^ 28) ∧
    (∀ v ∈ [900, 0x10000000], ¬(running.limits.lower.toNat < (BitVec.ofNat 32 v).toNat ∧ (BitVec.ofNat 32 v).toNat < 2 ^ 28)) := by decide

theorem test_witness_TimeoutWriteMayExpireTheTracker :
    (running.resetAsserted = false ∧ configured.resetAsserted = false) ∧
    (running.command.partState = .run ∧ configured.command.partState = .config) ∧
    (∀ v ∈ [45, 0x3FFFFFFF], 2 * (running.table.window + running.table.settle) < (BitVec.ofNat 32 v).toNat ∧ (BitVec.ofNat 32 v).toNat < 2 ^ 30) ∧
    (∀ v ∈ [44, 0x40000000], (BitVec.ofNat 32 v).toNat ≤ 2 * (running.table.window + running.table.settle) ∨ 2 ^ 30 ≤ (BitVec.ofNat 32 v).toNat) ∧
    (running.tracker.stall = .watching ∧ 45 ≤ ((atTick 1045 running).timebase.now - running.tracker.origin).toNat) := by decide

/-! The event queue. -/

theorem test_witness_OfferFollowsTheAppendRule :
    ((queueOf 30 []).acks = [] ∧ (queueOf 30 [5]).acks = [] ∧ (queueOf 31 [65535]).acks = [] ∧ (queueOf 31 []).acks = []) ∧
    (queueOf 30 []).records.length < 31 ∧
    (31 ≤ (queueOf 30 [5]).records.length ∧ (queueOf 30 [5]).records = (queueOf 30 []).records ++ [{ seq := 9, body := .overrun 5 }]) ∧
    31 ≤ (queueOf 31 [65535]).records.length ∧
    (31 ≤ (queueOf 31 []).records.length ∧ ∃ front r, (queueOf 31 []).records = front ++ [r] ∧ ∀ n, r.body ≠ .overrun n) :=
  ⟨by decide, by decide, by decide, by decide, by decide, List.replicate 30 _, _, rfl, nofun⟩

theorem test_witness_AckEventRemovesTheHead :
    (running.resetAsserted = false ∧ configured.resetAsserted = false) ∧
    running.queue.records = { seq := 0, body := .start 1000 (Lanes.build fun _ => .active) } :: [] ∧ configured.queue.records = [] ∧
    (∃ rank, (⟨.groupExpiry 1, 0, []⟩ : AckPlace).event = .groupExpiry rank ∧ Instr.groupExpiry 1 = .groupExpiry rank) ∧
    ({ running.queue with acks := [1] }.acks = (0 + 1) :: [] ∧ running.queue.acks = []) :=
  ⟨by decide, by decide, by decide, ⟨1, rfl, rfl⟩, by decide⟩

/-! Schedule banks and the armed list. -/

theorem test_witness_CommitAndCancelCommit :
    (running.resetAsserted = false ∧ configured.resetAsserted = false) ∧
    configured.command.partState = .config ∧ running.command.partState = .run ∧ running.schedule.commit ≠ .pending ∧
    { running.schedule with commit := .pending }.commit = CommitStatus.pending := by decide

/-- A notice of anchor 6, with or without a reference period. -/
def notice (period : Option Time) : Notice := { index := 6, voted := 1000, period := period }

theorem test_witness_SelectedEntryIsArmedOrMissed :
    ((entry .set 2 1 .ticks 0).enabled = true ∧ (notice none).index.toNat % 2 ^ (entry .set 2 1 .ticks 0).exponent ≠ 1) ∧
    (notice none).index.toNat % 2 ^ (entry .set 2 2 .fraction 512).exponent = (entry .set 2 2 .fraction 512).phase ∧
    (later ((notice none).voted + BitVec.ofNat 32 1) running.timebase.now = true ∧ running.armed.length < 16) ∧
    (∃ p, (notice (some 1001)).period = some p ∧ 500 = 512 * p.toNat / 1024 ∧
      later ((notice (some 1001)).voted + BitVec.ofNat 32 500) running.timebase.now = true) ∧
    (List.replicate 15 (armedAt .set .leading 9000)).length < 16 ∧ ¬(List.replicate 16 (armedAt .set .leading 9000)).length < 16 :=
  ⟨by decide, by decide, by decide, ⟨1001, by decide⟩, by decide, by decide⟩

theorem test_witness_LateEntryFollowsTheLatePolicy :
    (notLater ((notice none).voted + BitVec.ofNat 32 0) running.timebase.now = true ∧ running.schedule.latePolicy = .skip ∧
      (notice none).index.toNat % 2 ^ (entry .pulseHigh 0 0 .ticks 0).exponent = (entry .pulseHigh 0 0 .ticks 0).phase) ∧
    ((entry .toggle 0 0 .ticks 0).action.isPulse = false ∧ (entry .pulseHigh 0 0 .ticks 0).action.isPulse = true) ∧
    (notLater ((notice none).voted + BitVec.ofNat 32 40) (atTick 1040 running).timebase.now = true ∧
      later ((notice none).voted + BitVec.ofNat 32 40) (atTick 1039 running).timebase.now = true) ∧
    16 ≤ (List.replicate 16 (armedAt .set .leading 9000)).length := by decide

theorem test_witness_NoticeTakesTheCommitThenArmsInOrder :
    running.schedule.commit ≠ .pending ∧ { running.schedule with commit := .pending }.commit = CommitStatus.pending ∧
    (running.queue.acks = [] ∧ { running.queue with acks := [1, 2] }.acks = 1 :: [2]) ∧
    (State.takeNotice { running with schedule := { running.schedule with commit := .pending } } (notice none)).schedule.active = .b := by
  decide

/-- R126: behind 30 records a notice offers a COMMIT record and a MISSED one, which is dropped; the ACK EVENT awaited after one offer
is taken behind both, and not between them, where it would have made room. -/
theorem test_ackEvent_falls_behind_a_notice :
    let s : State := { running with
      queue := { queueOf 30 [] with acks := [1] }
      schedule := { running.schedule with commit := .pending, bankB := entry .set 0 0 .fraction 512 :: running.schedule.bankB.drop 1 } }
    (s.takeNotice (notice none)).queue.records.map Record.isOverrun = List.replicate 30 false ++ [true] := by decide

theorem test_witness_EntryWindowLoadsTheStagingWhole :
    (running.resetAsserted = false ∧ configured.resetAsserted = false) ∧
    ((11#4).toNat < 12 ∧ 12 ≤ (12#4).toNat) ∧ ((0x0806#16).toNat / 2 % 4 = lineIndex .out3 ∧ (0#16).toNat / 2 % 4 = lineIndex .out0) ∧
    ({ entry .pulseLow 6 63 .ticks 16777215 with width := 65535 } : Entry).inRange = true ∧
    (entry .set 0 0 .fraction 4095).inRange = true ∧ (entry .set 0 0 .fraction 4096).inRange = false := by decide

theorem test_witness_EntryWriteChecksInOrder :
    (running.resetAsserted = false ∧ configured.resetAsserted = false) ∧
    (∀ g ∈ [{ Staging.cleared with exponent := 7 }, { Staging.cleared with phase := 1 }, { Staging.cleared with action := 5 },
        { Staging.cleared with width := 0 }, { Staging.cleared with mode := .fraction, delayLow := 4096 }],
      6 < g.exponent.toNat ∨ 2 ^ g.exponent.toNat ≤ g.phase.toNat ∨ 4 < g.action.toNat ∨ g.width = 0 ∨
        (g.mode = .fraction ∧ 4095 < g.delay)) ∧
    (∀ g ∈ [Staging.cleared, { Staging.cleared with exponent := 6, phase := 63, action := 4, delayHigh := 0xFF, delayLow := 0xFFFF }],
      ¬(6 < g.exponent.toNat ∨ 2 ^ g.exponent.toNat ≤ g.phase.toNat ∨ 4 < g.action.toNat ∨ g.width = 0 ∨
        (g.mode = .fraction ∧ 4095 < g.delay)) ∧ (actionOfCode g.action).isSome = true) := by decide

theorem test_witness_ArmedActionTakesItsPlace :
    (armedAt .set .leading 9000).due ≠ (armedAt .set .leading 9001).due ∧
    ((armedAt .set .leading 9000).anchor ≠ { armedAt .set .leading 9000 with anchor := 6 }.anchor) ∧
    insertArmed 7 (armedAt .clear .leading 9000) [armedAt .set .leading 8999, armedAt .set .leading 9001] =
      [armedAt .set .leading 8999, armedAt .clear .leading 9000, armedAt .set .leading 9001] := by decide

theorem test_witness_ArmedHeadExpiresWhenDue :
    (running.resetAsserted = false ∧ configured.resetAsserted = false) ∧
    (running.command.partState = .run ∧ configured.command.partState = .config) ∧
    (notLater (armedAt .pulseHigh .leading 1000).due running.timebase.now = true ∧
      later (armedAt .pulseHigh .leading 1001).due running.timebase.now = true) ∧
    ((armedAt .pulseHigh .leading 1000).action.isPulse = true ∧ (armedAt .set .leading 1000).action.isPulse = false ∧
      (armedAt .pulseHigh .trailing 1000).phase = .trailing) := by decide

theorem test_witness_FlushAndForce :
    (running.resetAsserted = false ∧ configured.resetAsserted = false) ∧
    ((0xF0#8) &&& 0x0F = 0 ∧ (0xF1#8) &&& 0x0F ≠ 0) ∧
    ((0x83#8).toNat % 4 = lineIndex .out3 ∧ (0x83#8).toNat / 16 % 8 = 0 ∧ (0x10#8).toNat / 16 % 8 = 1 ∧
      (0x20#8).toNat / 16 % 8 = 2 ∧ 3 ≤ (0x30#8).toNat / 16 % 8) := by decide

/-! Run control. -/

theorem test_witness_StartReportsTheFirstFailingCheck :
    (running.resetAsserted = false ∧ configured.resetAsserted = false) ∧
    (∀ l, (State.reset.laneConfig.get l).enable = false) ∧
    (¬(∀ l, (configured.laneConfig.get l).enable = false) ∧ State.reset.table.window = 0) ∧
    (¬configured.table.window = 0 ∧ State.reset.limits.lower = 0) ∧
    (∀ l ∈ [({ lower := 900, upper := 900, timeout := 5000 } : Limits), { lower := 900, upper := 0x10000000, timeout := 5000 }],
      l.upper.toNat ≤ l.lower.toNat ∨ 2 ^ 28 ≤ l.upper.toNat) ∧
    (∀ t ∈ [44, 0x40000000], (BitVec.ofNat 32 t).toNat ≤ 2 * (configured.table.window + (max (max 3 1) 2 - 1)) ∨ 2 ^ 30 ≤ (BitVec.ofNat 32 t).toNat) ∧
    { configured.healthConfig with suspect := 17 }.exclude < 17 ∧ configured.table.window < 21 :=
  ⟨by decide, fun l => by cases l <;> decide, ⟨fun h => absurd (h .a) (by decide), by decide⟩, by decide, by decide, by decide, by decide,
    by decide⟩

theorem test_witness_StartSetsUpTheRun :
    (running.resetAsserted = false ∧ configured.resetAsserted = false) ∧
    configured.command.partState = .config ∧ (configured.laneConfig.get .a).enable = true ∧ configured.table.window ≠ 0 ∧
    1 ≤ configured.limits.lower.toNat ∧ configured.limits.lower.toNat < configured.limits.upper.toNat ∧
    configured.limits.upper.toNat < 2 ^ 28 ∧ 2 * (configured.table.window + 2) < configured.limits.timeout.toNat ∧
    configured.limits.timeout.toNat < 2 ^ 30 ∧ configured.healthConfig.suspect ≤ configured.healthConfig.exclude ∧
    configured.vote.tolerance ≤ configured.table.window := by decide

theorem test_witness_StopEndsTheRunInOrder :
    (running.resetAsserted = false ∧ configured.resetAsserted = false) ∧
    configured.command.partState = .config ∧ running.command.partState = .run ∧ HealthInv running :=
  ⟨by decide, by decide, by decide, running_health⟩

theorem test_witness_LaneEnableAndReadmitPutALaneOnProbation :
    (running.resetAsserted = false ∧ configured.resetAsserted = false) ∧
    ((0xFF#8).toNat % 4 = 3 ∧ ∀ p ∈ [(Lane.a, 0xFC#8), (.b, 1#8), (.c, 2#8)], p.2.toNat % 4 = (laneCode p.1).toNat) ∧
    (((withStates .active .off .excluded).health.get .b).state = .off ∧
      ((withStates .active .off .excluded).health.get .c).state = .excluded ∧
      ((withStates .active .off .excluded).health.get .c).state ≠ .off ∧
      ((withStates .active .off .excluded).health.get .b).state ≠ .excluded) := by decide

theorem test_witness_LaneDisableSparesTheLastVoter :
    (running.resetAsserted = false ∧ configured.resetAsserted = false) ∧
    (((withStates .active .off .excluded).health.get .a).state.votes = true ∧
      ∀ l, l ≠ .a → ((withStates .active .off .excluded).health.get l).state.votes = false) ∧
    ((withStates .active .off .excluded).health.get .b).state = .off ∧
    ((withStates .active .off .excluded).health.get .c).state.observes = true ∧
    (((withStates .active .suspect .off).health.get .a).state.votes = true ∧
      ∃ l, l ≠ .a ∧ ((withStates .active .suspect .off).health.get l).state.votes = true) :=
  ⟨by decide, ⟨by decide, fun l => by cases l <;> decide⟩, by decide, by decide, by decide, .b, by decide⟩

/-! Registers and the register window. -/

/-- The pins of an access to CMD: RESET, chip select and the two strobes, read first. -/
def access (reset select read write : Bool) : BusPins :=
  { reset := reset, chipSelect := select, readStrobe := read, writeStrobe := write, address := 0x01, data := 0x0207 }

/-! With RESET released, each of these statements holds in any state. -/

theorem test_witness_TimebaseAdvanceCountsOneTick : (running.resetAsserted = false ∧ configured.resetAsserted = false) := by decide

theorem test_witness_OutcfgWriteAndThePins : (running.resetAsserted = false ∧ configured.resetAsserted = false) := by decide

theorem test_witness_SoftResetKeepsTheConfiguration : (running.resetAsserted = false ∧ configured.resetAsserted = false) := by decide

theorem test_witness_FlagWritesAndIrq : (running.resetAsserted = false ∧ configured.resetAsserted = false) := by decide

theorem test_witness_SnapshotCopiesAndClearZeroes : (running.resetAsserted = false ∧ configured.resetAsserted = false) := by decide

theorem test_witness_WriteMakesTheAddressedCommandOrNone :
    (running.resetAsserted = false ∧ held.resetAsserted = true) ∧
    ((0x00#8).toNat = 0 ∧ 0x0E ≤ (0x0E#8).toNat ∧ 3 ≤ (3#3).toNat) ∧ (Instr.registerWrite 0x00 1).wellFormed = true ∧
    ((0x0005#16).extractLsb' 4 3 = 0#3 ∧ (0x0015#16).extractLsb' 4 3 = 1#3 ∧ (0x0025#16).extractLsb' 4 3 = 2#3 ∧
      3 ≤ ((0x0035#16).extractLsb' 4 3).toNat) ∧
    (commandOfAccess (access false true false true) = some (.stop 7) ∧ commandOfAccess (access false true true true) = none ∧
      commandOfAccess (access false false false true) = none ∧ commandOfAccess (access true true false true) = none ∧
      commandOfAccess (access false true true false) = none) ∧
    (running.dataBus (access false true true false) = some 0 ∧ held.dataBus (access false true true false) = none ∧
      running.dataBus (access false true false true) = none) := by decide

theorem test_witness_ConfigOnlyWriteInRunIsIgnored :
    (running.resetAsserted = false ∧ configured.resetAsserted = false) ∧
    running.command.partState = .run ∧ Instr.schcfgWrite 0 ∈ [Instr.prescaleWrite 0, .lcfgWrite .c 0, .blankWrite .c 0, .gwinWrite 0,
      .votecfgWrite 0, .hweightWrite 0, .hlevelWrite 0, .hrunWrite 0, .qthrWrite 0, .schcfgWrite 0] := by decide

theorem test_witness_ConfigWriteInRangeIsTaken :
    (running.resetAsserted = false ∧ configured.resetAsserted = false) ∧
    configured.command.partState = .config ∧ (7#16).toNat ≤ 7 ∧
    (∀ v ∈ [0x0010, 0x0103], 1 ≤ (BitVec.ofNat 16 v).toNat / 16 % 32 ∧ (BitVec.ofNat 16 v).toNat / 16 % 32 ≤ 16) ∧
    ((0x0010#16).toNat / 2 % 4 = 0 ∧ (0x0103#16).toNat / 2 % 4 = 1 ∧ (0x0105#16).toNat / 2 % 4 = 2) ∧
    (0x7FFF#16).toNat ≤ 32767 ∧ ((0x0011#16).toNat % 16 ≠ 0 ∧ (0x0011#16).toNat / 16 % 16 ≠ 0) ∧
    ((0x0101#16).toNat % 64 ≠ 0 ∧ (0x0101#16).toNat / 256 % 64 ≠ 0) ∧
    ((0x0101#16).toNat % 256 ≠ 0 ∧ (0x0101#16).toNat / 256 ≠ 0) ∧ (1 ≤ (1#16).toNat ∧ (32#16).toNat ≤ 32) := by decide

theorem test_witness_ConfigWriteOutOfRangeIsRefused :
    (running.resetAsserted = false ∧ configured.resetAsserted = false) ∧
    7 < (8#16).toNat ∧ ((0x0016#16).toNat / 2 % 4 = 3 ∧ (0x0200#16).toNat / 16 % 32 = 0 ∧ 16 < (0x0110#16).toNat / 16 % 32) ∧
    32767 < (0x8000#16).toNat ∧ ((0x0010#16).toNat % 16 = 0 ∧ (0x0101#16).toNat / 16 % 16 = 0) ∧
    ((0x0140#16).toNat % 64 = 0 ∧ (0x4001#16).toNat / 256 % 64 = 0) ∧ ((0x0100#16).toNat % 256 = 0 ∧ (0x0001#16).toNat / 256 = 0) ∧
    ((0#16).toNat = 0 ∧ 32 < (33#16).toNat) := by decide

theorem test_witness_PairAccessesGoThroughTheHolds :
    (running.resetAsserted = false ∧ configured.queue.records = [] ∧ running.queue.records.length = 1) ∧
    ({ running.window with readTag := some .rec4 }.readTag = some Pair.rec4 ∧ running.window.readTag ≠ some .tbase) ∧
    running.window.writeTag ≠ some .pmin := by decide

/-- The record of section 12.2 as the queue's head, number 1, behind the START record that has been acknowledged. -/
def headed : State :=
  { running with queue := { running.queue with seq := 2, records := [{ seq := 1, body := ((result (some 21001) .complete).record
      { Findings.untested with anchorIndex := some 0 }) }] } }

theorem test_witness_ReadsShowTheStateAndTheHead :
    (configured.queue.records = [] ∧ configured.window.readTag = none) ∧ (headed.queue.records.length = 1 ∧ headed.window.readTag = none) ∧
    (∀ i < 16, i = 5 ∨ ∀ p ∈ [(Pair.rec4, 5), (.rec6, 7), (.rec8, 9), (.rec10, 11)], p.2 = i → some Pair.rec4 ≠ some p.1) ∧
    (∀ address ∈ [0x07, 0x1F, 0x2F, 0x4B, 0x4F, 0x69, 0x7F], running.readAddress (BitVec.ofNat 7 address) = 0) := by decide

/-- Section 12.2's table of the GROUP record in the window. -/
theorem test_readAddress_of_a_group_record :
    [0x31, 0x32, 0x34, 0x35, 0x36, 0x38, 0x3C, 0x3D, 0x3E, 0x3F].map headed.readAddress =
      [1, 4, 21000, 0, 21001, 0, 0, 2, 1, 2] := by decide

end Sys2Proof.Tests
end

section
/-! PROOF. The comparison of two times (R1): one equivalence for each of the two comparisons. -/

namespace Sys2Proof.Machine

/-- R1: the Boolean comparison decides the half-range condition on the difference modulo 2^32. -/
theorem notLater_iff (a b : Time) : notLater a b = true ↔ (b - a).toNat < 2 ^ 31 := by
  simp only [notLater, decide_eq_true_iff]

/-- R1: of two times, exactly one of "not later" and "later" holds. -/
theorem later_iff_not_notLater (a b : Time) : later a b = true ↔ ¬notLater a b = true := by
  simp only [later, Bool.not_eq_true', Bool.not_eq_true]

/-- Settles O59, by the equivalence for each comparison. -/
theorem notLaterThanIsTheHalfRangeComparison : Obligations.NotLaterThanIsTheHalfRangeComparison :=
  fun a b => ⟨notLater_iff a b, later_iff_not_notLater a b⟩

end Sys2Proof.Machine
end

section
/-! PROOF. Pass 2 of an assessment (R71, R72): the lane the search for a keeper ends on, and what pass 2 makes of a lane that is not
over the limit, of one that is excluded and of the one kept. -/

namespace Sys2Proof.Machine

/-! ## The search for the keeper -/

/-- R71: a lane that votes takes the place of any lane with a higher score, and the place no lane has. -/
theorem betterKeeper_takes {hs : Lanes HealthRecord} {kept : Option Lane} {k : Lane} (hk : (hs.get k).state.votes = true)
    (hlower : ∀ j, kept = some j → (hs.get k).score < (hs.get j).score) : betterKeeper hs kept k = some k := by
  cases kept with
  | none => simp [betterKeeper, hk]
  | some j => simp [betterKeeper, hk, hlower j rfl]

/-- R71: a lane kept so far stays so at each later lane that has no lower score. -/
theorem betterKeeper_stays {hs : Lanes HealthRecord} {k l : Lane}
    (hle : (hs.get l).state.votes = true → (hs.get k).score ≤ (hs.get l).score) : betterKeeper hs (some k) l = some k := by
  unfold betterKeeper
  split
  · next hl => exact if_neg (Nat.not_lt.mpr (hle hl))
  · rfl

/-- The lane after one step of the search is the lane kept before, or the step's own lane if it votes. -/
theorem betterKeeper_cases {hs : Lanes HealthRecord} {kept : Option Lane} {l j : Lane} (h : betterKeeper hs kept l = some j) :
    kept = some j ∨ j = l ∧ (hs.get l).state.votes = true := by
  unfold betterKeeper at h
  split at h
  · next hl =>
    cases kept with
    | none => exact .inr ⟨(Option.some.inj h).symm, hl⟩
    | some k =>
      simp only at h
      split at h
      · exact .inr ⟨(Option.some.inj h).symm, hl⟩
      · exact .inl h
  · exact .inl h

/-- A search ends on the lane it started from or on a voting lane of its list. -/
theorem foldl_betterKeeper_mem {hs : Lanes HealthRecord} {j : Lane} :
    ∀ (ls : List Lane) (kept : Option Lane), ls.foldl (betterKeeper hs) kept = some j →
      kept = some j ∨ j ∈ ls ∧ (hs.get j).state.votes = true
  | [], _, h => .inl h
  | l :: ls, kept, h => by
    rcases foldl_betterKeeper_mem ls _ h with hstep | ⟨hmem, hv⟩
    · rcases betterKeeper_cases hstep with hkept | ⟨rfl, hv⟩
      · exact .inl hkept
      · exact .inr ⟨List.mem_cons_self, hv⟩
    · exact .inr ⟨List.mem_cons_of_mem l hmem, hv⟩

/-- A search that has reached a lane with the lowest score ends on it. -/
theorem foldl_betterKeeper_stays {hs : Lanes HealthRecord} {k : Lane}
    (hle : ∀ l, (hs.get l).state.votes = true → (hs.get k).score ≤ (hs.get l).score) (ls : List Lane) :
    ls.foldl (betterKeeper hs) (some k) = some k := by
  induction ls with
  | nil => rfl
  | cons l ls ih => rw [List.foldl_cons, betterKeeper_stays (hle l), ih]

/-- In lane order, the lanes before a lane are those of lower index (00_scope.md section 4.2). -/
theorem Lane.all_eq_append_cons (k : Lane) :
    ∃ before after, Lane.all = before ++ k :: after ∧ ∀ j ∈ before, (laneCode j).toNat < (laneCode k).toNat := by
  cases k with
  | a => exact ⟨[], [.b, .c], rfl, by decide⟩
  | b => exact ⟨[.a], [.c], rfl, by decide⟩
  | c => exact ⟨[.a, .b], [], rfl, by decide⟩

/-- R71: the keeper is the voting lane that has the lowest score, or the lowest index among those that share it: the search holds no
lane or one with a higher score when it comes to that lane, and leaves it for none behind it. -/
theorem keeper_eq_some {hs : Lanes HealthRecord} {k : Lane} (hk : (hs.get k).state.votes = true)
    (hfirst : ∀ l, (hs.get l).state.votes = true → l ≠ k → (hs.get k).score < (hs.get l).score ∨
      (hs.get k).score = (hs.get l).score ∧ (laneCode k).toNat < (laneCode l).toNat) : keeper hs = some k := by
  obtain ⟨before, after, hall, hbefore⟩ := Lane.all_eq_append_cons k
  have htakes : betterKeeper hs (before.foldl (betterKeeper hs) none) k = some k := by
    refine betterKeeper_takes hk fun j hj => ?_
    obtain hnone | ⟨hmem, hv⟩ := foldl_betterKeeper_mem before none hj
    · cases hnone
    · have hindex := hbefore j hmem
      have hne : j ≠ k := by rintro rfl; exact Nat.lt_irrefl _ hindex
      have := hfirst j hv hne
      omega
  have hlowest : ∀ l, (hs.get l).state.votes = true → (hs.get k).score ≤ (hs.get l).score := by
    intro l hl
    by_cases hlk : l = k
    · rw [hlk]
    · have := hfirst l hl hlk
      omega
  rw [keeper, hall, List.foldl_append, List.foldl_cons, htakes, foldl_betterKeeper_stays hlowest]

/-! ## The lane kept -/

theorem HealthRecord.overLimit_iff (te : Nat) (h : HealthRecord) :
    h.overLimit te = true ↔ h.state.votes = true ∧ te ≤ h.score := by
  simp [HealthRecord.overLimit]

/-- R71: where some voting lane is under the limit, no lane over it is kept. -/
theorem keptLane_eq_none {te : Nat} {hs : Lanes HealthRecord} {l : Lane} (hl : (hs.get l).state.votes = true)
    (hunder : (hs.get l).score < te) : keptLane te hs = none :=
  if_pos <| (Lane.any_iff _).mpr ⟨l, by simp [HealthRecord.overLimit, hl, hunder]⟩

/-- R71: where every voting lane is over the limit, the keeper is kept. -/
theorem keptLane_eq_keeper {te : Nat} {hs : Lanes HealthRecord}
    (hover : ∀ l, (hs.get l).state.votes = true → te ≤ (hs.get l).score) : keptLane te hs = keeper hs := by
  refine if_neg fun hany => ?_
  obtain ⟨l, hl⟩ := (Lane.any_iff _).mp hany
  obtain ⟨hv, hunder⟩ : (hs.get l).state.votes = true ∧ (hs.get l).overLimit te = false := by simpa using hl
  simp [(HealthRecord.overLimit_iff te _).mpr ⟨hv, hover l hv⟩] at hunder

/-! ## Pass 2 of one lane -/

theorem passTwo_get (te : Nat) (hs : Lanes HealthRecord) (l : Lane) :
    (passTwo te hs).get l = (passTwoLane te (keptLane te hs) l (hs.get l)).settleMark te := by
  simp [passTwo]

/-- R72: a lane that is not over the limit only loses its mark. -/
theorem passTwo_get_of_not_overLimit {te : Nat} {hs : Lanes HealthRecord} {l : Lane} (h : ¬(hs.get l).overLimit te = true) :
    (passTwo te hs).get l = { hs.get l with mark := false } := by
  rw [passTwo_get, passTwoLane, if_neg h]
  simp [HealthRecord.settleMark, h]

/-- R71, R72: a lane over the limit that is not the one kept is EXCLUDED, and an EXCLUDED lane has no mark. -/
theorem passTwo_get_of_not_kept {te : Nat} {hs : Lanes HealthRecord} {l : Lane} (h : (hs.get l).overLimit te = true)
    (hkept : keptLane te hs ≠ some l) :
    (passTwo te hs).get l = { hs.get l with state := .excluded, goodRun := 0, mark := false } := by
  rw [passTwo_get, passTwoLane, if_pos h, if_neg hkept]
  simp [HealthRecord.settleMark, HealthRecord.exclude, HealthRecord.overLimit, LaneState.votes]

/-- R71, R72: the lane over the limit that is kept has the mark. -/
theorem passTwo_get_of_kept {te : Nat} {hs : Lanes HealthRecord} {l : Lane} (h : (hs.get l).overLimit te = true)
    (hkept : keptLane te hs = some l) : (passTwo te hs).get l = { hs.get l with mark := true } := by
  rw [passTwo_get, passTwoLane, if_pos h, if_pos hkept]
  simpa [HealthRecord.settleMark, HealthRecord.overLimit] using h

/-- Settles O26: which lane is kept decides each voting lane over the limit, and it is none where a voting lane is under it and the
keeper where none is. -/
theorem passTwoExcludesAllButTheLastVoter : Obligations.PassTwoExcludesAllButTheLastVoter := by
  intro te hs
  refine ⟨fun l hunder => ?_, fun ⟨j, hj, hunder⟩ l hl hover => ?_, fun k hover hk hfirst => ?_⟩
  · exact passTwo_get_of_not_overLimit fun h => hunder ((HealthRecord.overLimit_iff te _).mp h)
  · exact passTwo_get_of_not_kept ((HealthRecord.overLimit_iff te _).mpr ⟨hl, hover⟩) (by simp [keptLane_eq_none hj hunder])
  · have hkept : keptLane te hs = some k := (keptLane_eq_keeper hover).trans (keeper_eq_some hk hfirst)
    have hlimit : ∀ l, (hs.get l).state.votes = true → (hs.get l).overLimit te = true := fun l hl =>
      (HealthRecord.overLimit_iff te _).mpr ⟨hl, hover l hl⟩
    refine ⟨passTwo_get_of_kept (hlimit k hk) hkept, fun l hne hl => passTwo_get_of_not_kept (hlimit l hl) ?_⟩
    rw [hkept]
    exact fun h => hne (Option.some.inj h).symm

end Sys2Proof.Machine
end

section
/-! PROOF. The append rule (R105): what an offer does to the queue by the number of records held and the kind of the tail, and when
the OVERRUN flag is set. -/

namespace Sys2Proof.Machine

/-! ## The tests of the rule and the count -/

/-- R104: a count that has reached 65,535 stays there. -/
theorem saturatingNext_eq (n : Word) : saturatingNext n = if n = 65535 then 65535 else n + 1 :=
  ite_congr rfl id fun _ => rfl

/-- R105: an offer is dropped from 31 records on. -/
theorem EventQueue.drops_iff (q : EventQueue) : q.drops = true ↔ 31 ≤ q.records.length := by
  simp [EventQueue.drops, Config.dropThreshold]

theorem Record.isOverrun_eq_false {r : Record} (h : ∀ n, r.body ≠ .overrun n) : r.isOverrun = false := by
  unfold Record.isOverrun
  split
  · next n hbody => exact absurd hbody (h n)
  all_goals rfl

/-- The kind of the tail is that of the last record held. -/
theorem EventQueue.overrunTail_eq {q : EventQueue} {front : List Record} {r : Record} (hq : q.records = front ++ [r]) :
    q.overrunTail = r.isOverrun := by
  simp [EventQueue.overrunTail, hq]

/-! ## The rows of the rule, at the queue -/

/-- R105: up to 30 records held, the record offered is appended. -/
theorem EventQueue.enqueue_of_room {q : EventQueue} (hroom : q.records.length < 31) (body : RecordBody) :
    q.enqueue body = q.append body :=
  if_neg fun hdrops => Nat.not_le.mpr hroom (q.drops_iff.mp hdrops)

/-- R104, R105: a drop behind an OVERRUN tail only counts in that record. -/
theorem EventQueue.enqueue_of_overrun_tail {q : EventQueue} {front : List Record} {k n : Word}
    (hq : q.records = front ++ [{ seq := k, body := .overrun n }]) (hfull : 31 ≤ q.records.length) (body : RecordBody) :
    q.enqueue body = { q with records := front ++ [{ seq := k, body := .overrun (saturatingNext n) }] } := by
  have htail : q.overrunTail = true := EventQueue.overrunTail_eq hq
  rw [EventQueue.enqueue, if_pos (q.drops_iff.mpr hfull), if_pos htail, hq, changeLast_append]
  rfl

/-- R105: a drop behind a tail of another kind appends an OVERRUN record with count 1. -/
theorem EventQueue.enqueue_of_other_tail {q : EventQueue} {front : List Record} {r : Record} (hq : q.records = front ++ [r])
    (hr : ∀ n, r.body ≠ .overrun n) (hfull : 31 ≤ q.records.length) (body : RecordBody) :
    q.enqueue body = q.append (.overrun 1) := by
  have htail : q.overrunTail = false := (EventQueue.overrunTail_eq hq).trans (Record.isOverrun_eq_false hr)
  rw [EventQueue.enqueue, if_pos (q.drops_iff.mpr hfull), htail]
  exact if_neg Bool.false_ne_true

/-! ## An offer in the part -/

/-- R105: an offer that is not dropped changes the queue alone. -/
theorem State.offer_of_room {s : State} (hacks : s.queue.acks = []) (hroom : s.queue.records.length < 31) (body : RecordBody) :
    s.offer body = { s with queue := s.queue.enqueue body } := by
  rw [State.offer_eq, EventQueue.offer_eq_enqueue hacks, decide_eq_false (Nat.not_le.mpr hroom), Bool.or_false]

/-- R105: each drop sets the OVERRUN flag, and changes nothing else beside the queue. -/
theorem State.offer_of_drop {s : State} (hacks : s.queue.acks = []) (hfull : 31 ≤ s.queue.records.length) (body : RecordBody) :
    s.offer body =
      { s with
        queue := s.queue.enqueue body
        interrupt := { s.interrupt with flags := { s.interrupt.flags with overrun := true } } } := by
  rw [State.offer_eq, EventQueue.offer_eq_enqueue hacks, decide_eq_true hfull, Bool.or_true]

/-- Settles O33: the row of the append rule decides the queue, and the number of records held decides the flag. -/
theorem offerFollowsTheAppendRule : Obligations.OfferFollowsTheAppendRule := by
  intro body s hacks
  refine ⟨fun hroom => ?appended, fun front k n hq hfull => ?counted, fun front r hq hr hfull => ?marked⟩
  case appended =>
    rw [State.offer_of_room hacks hroom, EventQueue.enqueue_of_room hroom]
    rfl
  case counted =>
    rw [State.offer_of_drop hacks hfull, EventQueue.enqueue_of_overrun_tail hq hfull, saturatingNext_eq]
  case marked =>
    rw [State.offer_of_drop hacks hfull, EventQueue.enqueue_of_other_tail hq hr hfull]
    rfl

end Sys2Proof.Machine
end

section
/-! PROOF. COMMIT and CANCEL COMMIT (R124, R125): what each makes of the part, by the part state and the commit status. The argument
stands on the left of each equation only. -/

namespace Sys2Proof.Machine

/-! ## The meaning of the two commands -/

theorem exec_commit_eq (arg : BitVec 8) (s : State) : exec (.commit arg) s = execCommit arg s := by
  rfl

theorem exec_cancelCommit_eq (arg : BitVec 8) (s : State) : exec (.cancelCommit arg) s = execCancelCommit arg s := by
  rfl

/-! ## COMMIT -/

/-- R124: in CONFIG the banks exchange roles at once, whatever the commit status. -/
theorem execCommit_of_config {s : State} (hconfig : s.command.partState = .config) (arg : BitVec 8) :
    execCommit arg s = s.accept ((s.setSchedule s.schedule.exchange).answer 0x04 .done) := by
  simp only [execCommit, hconfig]

/-- R124: in RUN a commit waits for the next anchor. -/
theorem execCommit_of_run {s : State} (hrun : s.command.partState = .run) (hcommit : s.schedule.commit ≠ .pending) (arg : BitVec 8) :
    execCommit arg s = s.accept ((s.setSchedule { s.schedule with commit := .pending }).answer 0x04 .pending) := by
  unfold execCommit
  split
  · next hconfig => cases hrun.symm.trans hconfig
  · next hpending => exact absurd hpending hcommit
  all_goals rfl

/-- R124: in RUN a second commit is refused while one waits. -/
theorem execCommit_of_pending {s : State} (hrun : s.command.partState = .run) (hcommit : s.schedule.commit = .pending)
    (arg : BitVec 8) : execCommit arg s = s.accept (s.answer 0x04 .busy) := by
  simp only [execCommit, hrun, hcommit]

/-! ## CANCEL COMMIT -/

/-- R125: a waiting commit is withdrawn. -/
theorem execCancelCommit_of_pending {s : State} (hcommit : s.schedule.commit = .pending) (arg : BitVec 8) :
    execCancelCommit arg s = s.accept ((s.setSchedule { s.schedule with commit := .cancelled }).answer 0x05 .done) := by
  simp only [execCancelCommit, hcommit]

/-- R125: with no commit waiting the command is refused. -/
theorem execCancelCommit_of_not_pending {s : State} (hcommit : s.schedule.commit ≠ .pending) (arg : BitVec 8) :
    execCancelCommit arg s = s.accept (s.answer 0x05 .state) := by
  unfold execCancelCommit
  split
  · next hpending => exact absurd hpending hcommit
  all_goals rfl

/-- Settles O35: the part state and the commit status select the equation of each command, and outside RESET its state is taken. -/
theorem commitAndCancelCommit : Obligations.CommitAndCancelCommit := by
  intro arg s hreleased
  rw [exec_commit_eq, exec_cancelCommit_eq]
  refine ⟨fun hconfig => ?exchanged, fun hrun hcommit => ?waiting, fun hrun hcommit => ?busy, fun hcommit => ?withdrawn,
    fun hcommit => ?refused⟩
  case exchanged => exact (execCommit_of_config hconfig arg).trans (State.accept_released hreleased _)
  case waiting => exact (execCommit_of_run hrun hcommit arg).trans (State.accept_released hreleased _)
  case busy => exact (execCommit_of_pending hrun hcommit arg).trans (State.accept_released hreleased _)
  case withdrawn => exact (execCancelCommit_of_pending hcommit arg).trans (State.accept_released hreleased _)
  case refused => exact (execCancelCommit_of_not_pending hcommit arg).trans (State.accept_released hreleased _)

end Sys2Proof.Machine
end

section
/-! PROOF. The latch (R138) and the commands FLUSH and FORCE (R141, R144): the level each action gives, the fields of the arguments,
and what each command makes of the part. -/

namespace Sys2Proof.Machine

/-! ## The latch -/

@[simp] theorem latchAfter_set (phase : Phase) (before : Bool) : latchAfter .set phase before = true := rfl

@[simp] theorem latchAfter_clear (phase : Phase) (before : Bool) : latchAfter .clear phase before = false := rfl

@[simp] theorem latchAfter_toggle (phase : Phase) (before : Bool) : latchAfter .toggle phase before = !before := rfl

/-- Settles O42: SET, CLEAR and TOGGLE act alike in each phase, and each phase of a pulse has its own level. -/
theorem latchAfterAnAction : Obligations.LatchAfterAnAction := fun phase before =>
  ⟨latchAfter_set phase before, latchAfter_clear phase before, latchAfter_toggle phase before, rfl, rfl, rfl, rfl⟩

/-! ## The fields of an argument -/

/-- R141: a mask of 0 is a mask with none of its four bits set, whatever the upper four bits are. -/
theorem lineMask_eq_zero_iff (arg : BitVec 8) : arg.extractLsb' 0 4 = 0 ↔ arg &&& 0x0F = 0 := by
  have hmask : (arg.extractLsb' 0 4).toNat = arg.toNat % 16 := by simp
  have hand : (arg &&& 0x0F).toNat = arg.toNat % 16 := Nat.and_two_pow_sub_one_eq_mod arg.toNat 4
  rw [← BitVec.toNat_inj, ← BitVec.toNat_inj, hmask, hand]
  rfl

theorem lineIndex_lt (line : Line) : lineIndex line < 4 := by
  cases line <;> decide

/-- R141: a line is in the mask when its bit of the argument is set. -/
theorem inMask_lineMask (arg : BitVec 8) (line : Line) :
    inMask (arg.extractLsb' 0 4) line = arg.getLsbD (lineIndex line) := by
  simp [inMask, lineIndex_lt]

theorem lineOfCode_eq_of_toNat {code : BitVec 2} {line : Line} (h : code.toNat = lineIndex line) : lineOfCode code = line := by
  cases line <;> simp only [lineOfCode, h, lineIndex]

/-- R144: the low two bits of the argument name the line. -/
theorem lineOfCode_of_arg {arg : BitVec 8} {line : Line} (h : arg.toNat % 4 = lineIndex line) :
    lineOfCode (arg.extractLsb' 0 2) = line :=
  lineOfCode_eq_of_toNat (by simpa using h)

/-- R144: bits 6..4 of the argument are the action code. -/
theorem actionField_toNat (arg : BitVec 8) : (arg.extractLsb' 4 3).toNat = arg.toNat / 16 % 8 := by
  simp [Nat.shiftRight_eq_div_pow]

theorem actionOfCode_of_set {code : BitVec 3} (h : code.toNat = 0) : actionOfCode code = some .set := by
  simp only [actionOfCode, h]

theorem actionOfCode_of_clear {code : BitVec 3} (h : code.toNat = 1) : actionOfCode code = some .clear := by
  simp only [actionOfCode, h]

theorem actionOfCode_of_toggle {code : BitVec 3} (h : code.toNat = 2) : actionOfCode code = some .toggle := by
  simp only [actionOfCode, h]

/-- Section 11.6: from 3 on a code names a pulse or no action. -/
theorem isPulse_of_actionOfCode {code : BitVec 3} {action : Action} (hcode : 3 ≤ code.toNat)
    (h : actionOfCode code = some action) : action.isPulse = true := by
  unfold actionOfCode at h
  split at h
  case h_4 | h_5 => cases h; rfl
  case h_6 => cases h
  all_goals omega

/-! ## FLUSH -/

theorem exec_flush_eq (arg : BitVec 8) (s : State) : exec (.flush arg) s = execFlush arg s := by
  rfl

/-- R141: with an empty mask the command is refused. -/
theorem execFlush_of_empty_mask {arg : BitVec 8} (hmask : arg &&& 0x0F = 0) (s : State) :
    execFlush arg s = s.accept (s.answer 0x06 .arg) :=
  if_pos ((lineMask_eq_zero_iff arg).mpr hmask)

/-- R141: with some line in the mask the actions of the masked lines leave the list. -/
theorem execFlush_of_mask {arg : BitVec 8} (hmask : arg &&& 0x0F ≠ 0) (s : State) :
    execFlush arg s =
      s.accept ((s.setArmed (s.armed.filter fun x => !arg.getLsbD (lineIndex x.line))).answer 0x06 .done) := by
  simp only [← inMask_lineMask]
  exact if_neg fun h => hmask ((lineMask_eq_zero_iff arg).mp h)

/-! ## FORCE -/

theorem exec_force_eq (arg : BitVec 8) (s : State) : exec (.force arg) s = execForce arg s := by
  rfl

/-- R144: SET, CLEAR and TOGGLE act on the line's latch at once. -/
theorem execForce_of_level {arg : BitVec 8} {action : Action} (haction : actionOfCode (arg.extractLsb' 4 3) = some action)
    (hlevel : action.isPulse = false) (s : State) :
    execForce arg s = s.accept ((s.drive (lineOfCode (arg.extractLsb' 0 2)) action .leading).answer 0x07 .done) := by
  cases action with
  | set | clear | toggle => simp only [execForce, haction]
  | pulseHigh | pulseLow => cases hlevel

/-- R144: a code that names a pulse or no action is refused. -/
theorem execForce_of_no_level {arg : BitVec 8} (hcode : 3 ≤ arg.toNat / 16 % 8) (s : State) :
    execForce arg s = s.accept (s.answer 0x07 .arg) := by
  have hpulse : ∀ action, actionOfCode (arg.extractLsb' 4 3) = some action → action.isPulse = true := fun _ =>
    isPulse_of_actionOfCode (actionField_toNat arg ▸ hcode)
  unfold execForce
  split
  case h_1 haction | h_2 haction | h_3 haction => cases hpulse _ haction
  all_goals rfl

/-- R144, R156: what FORCE makes of the part when the action leaves the named line's latch at `level`. -/
theorem exec_force_of_level {arg : BitVec 8} {line : Line} {action : Action} {level : Bool} {s : State}
    (hreleased : s.resetAsserted = false) (hline : arg.toNat % 4 = lineIndex line)
    (haction : actionOfCode (arg.extractLsb' 4 3) = some action) (hpulse : action.isPulse = false)
    (hlevel : latchAfter action .leading (s.output.latch.get line) = level) :
    exec (.force arg) s = .next
      { s with
        output := { s.output with latch := s.output.latch.set line level }
        command := { s.command with code := 0x07, result := .done, startError := 0 } } := by
  rw [exec_force_eq, execForce_of_level haction hpulse, lineOfCode_of_arg hline, State.accept_released hreleased, ← hlevel]
  rfl

/-- Settles O44: the mask decides a FLUSH and the action code a FORCE, and outside RESET the state each gives is taken. -/
theorem flushAndForce : Obligations.FlushAndForce := by
  refine ⟨fun arg s hreleased => ⟨fun hmask => ?emptyMask, fun hmask => ?mask⟩, fun arg line code s hreleased hline hcode =>
    ⟨fun level hlevel => ?level, fun hrefused => ?noLevel⟩⟩
  case emptyMask =>
    rw [exec_flush_eq, execFlush_of_empty_mask hmask, State.accept_released hreleased]
    rfl
  case mask =>
    rw [exec_flush_eq, execFlush_of_mask hmask, State.accept_released hreleased]
    rfl
  case level =>
    have hfield : (arg.extractLsb' 4 3).toNat = code := (actionField_toNat arg).trans hcode
    obtain ⟨rfl, rfl⟩ | ⟨rfl, rfl⟩ | ⟨rfl, rfl⟩ := hlevel
    · exact exec_force_of_level hreleased hline (actionOfCode_of_set hfield) rfl (latchAfter_set _ _)
    · exact exec_force_of_level hreleased hline (actionOfCode_of_clear hfield) rfl (latchAfter_clear _ _)
    · exact exec_force_of_level hreleased hline (actionOfCode_of_toggle hfield) rfl (latchAfter_toggle _ _)
  case noLevel =>
    rw [exec_force_eq, execForce_of_no_level (hcode ▸ hrefused), State.accept_released hreleased]
    rfl

end Sys2Proof.Machine
end

section
/-! PROOF. What a command can do to the part, said once: every command but HARD_RESET answers the state its pins show, or while RESET
is released an effect on it, and an effect is made of the changes listed here. -/

namespace Sys2Proof.Machine

/-! ## The changes -/

/-- The changes a command makes, each with what has been tested before it, and their sequences. -/
inductive Effect : State → State → Prop
  | refl (s : State) : Effect s s
  | trans {s t u : State} (first : Effect s t) (second : Effect t u) : Effect s u
  /-- The blocks that no invariant looks at, the part state left as it is. -/
  | registers (s : State) (timebase : Timebase) (output : Output) (command : CommandUnit) (interrupt : Interrupt)
      (stats : Statistics) (window : RegisterWindow) (partState : command.partState = s.command.partState) :
      Effect s { s with timebase := timebase, output := output, command := command, interrupt := interrupt, stats := stats,
                        window := window }
  /-- R5: the samples of a new tick are due. -/
  | dueSamples (s : State) : Effect s (s.setFrontEnds s.dueSamples)
  /-- R12: a last accepted edge time is discarded. -/
  | discard (s : State) (lane : Lane) : Effect s (s.updateFrontEnd lane fun fe => { fe with lastAccepted := none })
  /-- The act of an event of the field or of time. -/
  | act (s : State) (e : TickEvent) : Effect s (s.act e)
  /-- R109: such an act with ACK EVENTs within it. -/
  | actWithAcks (s : State) (place : AckPlace) : Effect s (s.actWithAcks place)
  /-- R108: the head of the queue is removed. -/
  | acknowledge (s : State) (head : Record) (rest : List Record) (records : s.queue.records = head :: rest) :
      Effect s (s.setQueue { s.queue with records := rest })
  /-- R90: the tracker expires. -/
  | stall (s : State) (due : s.stallDue = true) : Effect s s.expireStall
  /-- R137: the head of the armed list expires. -/
  | armedExpiry (s : State) (x : ArmedAction) (rest : List ArmedAction) (run : s.inRun = true) (armed : s.armed = x :: rest) :
      Effect s (s.expireArmed x rest)
  /-- R160: START sets up the run. -/
  | start (s : State) (config : s.inRun = false) (checks : s.startError = 0) : Effect s s.startRun
  /-- R162: STOP ends it. -/
  | stop (s : State) (run : s.inRun = true) : Effect s s.stopRun
  /-- R165: SOFT RESET. -/
  | softReset (s : State) : Effect s s.softReset
  /-- R118 to R125: the schedule block changes beside its entries, and a commit comes to wait in RUN alone. -/
  | schedule (s : State) (c : Schedule) (entries : ∀ bank, c.entries bank = s.schedule.entries bank)
      (pending : c.commit = .pending → s.schedule.commit = .pending ∨ s.inRun = true) : Effect s (s.setSchedule c)
  /-- R120: the staging is copied into a shadow entry. -/
  | writeEntry (s : State) (index : BitVec 4) : Effect s (s.setSchedule (s.schedule.writeEntry index))
  /-- R141: actions leave the armed list. -/
  | flush (s : State) (keep : ArmedAction → Bool) : Effect s (s.setArmed (s.armed.filter keep))
  /-- R169: a setting is written in CONFIG, within its range. -/
  | configure (s : State) (lanes : Lanes LaneConfig) (window : Nat) (vote : VoteConfig) (health : HealthConfig) (threshold : Nat)
      (config : s.inRun = false)
      (range : SettingsInv s → SettingsInv
        { s with
          laneConfig := lanes, table := { s.table with window := window }, vote := vote, healthConfig := health
          queue := { s.queue with threshold := threshold } }) :
      Effect s
        { s with
          laneConfig := lanes, table := { s.table with window := window }, vote := vote, healthConfig := health
          queue := { s.queue with threshold := threshold } }
  /-- R77: LANE ENABLE accepted in RUN. -/
  | enable (s : State) (lane : Lane) (run : s.inRun = true) (off : (s.health.get lane).state = .off) : Effect s (s.enableLane lane)
  /-- R78: LANE DISABLE accepted in RUN. -/
  | disable (s : State) (lane : Lane) (run : s.inRun = true) (may : s.mayDisable lane = true) : Effect s (s.disableLane lane)
  /-- R79: LANE READMIT accepted. -/
  | readmit (s : State) (lane : Lane) (run : s.inRun = true) (excluded : (s.health.get lane).state = .excluded) :
      Effect s (s.commandLane lane .probation .readmit)
  /-- R93 to R95: a 32-bit write is completed. -/
  | writePair (s : State) (pair : WritablePair) (value : Time) : Effect s (s.writePair pair value)

theorem Effect.answer (s : State) (code : BitVec 8) (result : CmdResult) (startError : Nat) :
    Effect s (s.answer code result startError) :=
  .registers s s.timebase s.output _ s.interrupt s.stats s.window rfl

/-- An effect, and then CMDRES shows the result. -/
theorem Effect.answered {s t : State} (h : Effect s t) (code : BitVec 8) (result : CmdResult) (startError : Nat) :
    Effect s (t.answer code result startError) :=
  h.trans (.answer t code result startError)

theorem Effect.setWindow (s : State) (w : RegisterWindow) : Effect s (s.setWindow w) :=
  .registers s s.timebase s.output s.command s.interrupt s.stats w rfl

theorem Effect.setBusStatus (s : State) (f : BusStatus → BusStatus) : Effect s (s.setBusStatus f) :=
  .registers s s.timebase s.output s.command _ s.stats _ rfl

theorem Effect.setInterrupt (s : State) (i : Interrupt) : Effect s (s.setInterrupt i) :=
  .registers s s.timebase s.output s.command i s.stats s.window rfl

theorem Effect.setOutput (s : State) (o : Output) : Effect s (s.setOutput o) :=
  .registers s s.timebase o s.command s.interrupt s.stats s.window rfl

theorem Effect.setStats (s : State) (st : Statistics) : Effect s (s.setStats st) :=
  .registers s s.timebase s.output s.command s.interrupt st s.window rfl

theorem Effect.setTimebase (s : State) (t : Timebase) : Effect s (s.setTimebase t) :=
  .registers s t s.output s.command s.interrupt s.stats s.window rfl

/-! ## The answer of a command -/

/-- The answer is the state, or while RESET is released an effect on it (R168). -/
def Accepts (s : State) (a : Answer) : Prop := ∃ t, a = s.accept t ∧ Effect s t

theorem Accepts.of_effect {s t : State} (h : Effect s t) : Accepts s (s.accept t) := ⟨t, rfl, h⟩

theorem Accepts.refused (s : State) : Accepts s (s.accept s) := .of_effect (.refl s)

theorem Accepts.answer (s : State) (code : BitVec 8) (result : CmdResult) (startError : Nat) :
    Accepts s (s.accept (s.answer code result startError)) := .of_effect (.answer s code result startError)

/-- What holds of the state and is kept by every effect holds of the next state. -/
theorem Accepts.next {s u : State} {a : Answer} (h : Accepts s a) (hu : a = .next u) : Effect s u := by
  obtain ⟨t, rfl, ht⟩ := h
  exact State.accept_next hu (.refl s) ht

theorem State.inRun_eq_false_iff (s : State) : s.inRun = false ↔ s.command.partState = .config := by
  cases h : s.command.partState <;> simp [State.inRun, h]

theorem State.inRun_eq_true_iff (s : State) : s.inRun = true ↔ s.command.partState = .run := by
  simp [State.inRun]

/-! ## Events of time and of the field -/

theorem execTimebaseAdvance_accepts (s : State) : Accepts s (execTimebaseAdvance s) :=
  .of_effect ((Effect.dueSamples s).trans (.setTimebase _ _))

theorem execLastAcceptedDiscard_accepts (lane : Lane) (s : State) : Accepts s (execLastAcceptedDiscard lane s) := by
  unfold execLastAcceptedDiscard
  split
  · refine .of_effect ?_
    split
    · exact .discard s lane
    · exact .refl s
  · exact .refused s

theorem execStallExpiry_accepts (s : State) : Accepts s (execStallExpiry s) := by
  refine .of_effect ?_
  split
  · next due => exact .stall s due
  · exact .refl s

theorem execArmedActionExpiry_accepts (s : State) : Accepts s (execArmedActionExpiry s) := by
  unfold execArmedActionExpiry
  split
  · exact .refused s
  · next x rest armed =>
    refine .of_effect ?_
    split
    · next due => exact .armedExpiry s x rest (Bool.and_eq_true_iff.mp due).1 armed
    · exact .refl s

/-! ## Commands of the command unit -/

theorem execStart_accepts (arg : BitVec 8) (s : State) : Accepts s (execStart arg s) := by
  unfold execStart
  split
  · exact .answer s _ _ _
  · next config =>
    split
    · next checks => exact .of_effect ((Effect.start s (Bool.not_eq_true _ ▸ config) checks).answered _ _ _)
    · exact .answer s _ _ _

theorem execStop_accepts (arg : BitVec 8) (s : State) : Accepts s (execStop arg s) := by
  unfold execStop
  split
  · next run => exact .of_effect ((Effect.stop s run).answered _ _ _)
  · exact .answer s _ _ _

theorem execCommit_accepts (arg : BitVec 8) (s : State) : Accepts s (execCommit arg s) := by
  cases run : s.command.partState with
  | config =>
    rw [execCommit_of_config run]
    exact .of_effect ((Effect.schedule s _ s.schedule.exchange_entries fun pending => by cases pending).answered _ _ _)
  | run =>
    by_cases pending : s.schedule.commit = .pending
    · rw [execCommit_of_pending run pending]
      exact .answer s _ _ _
    · rw [execCommit_of_run run pending]
      exact .of_effect ((Effect.schedule s _ (fun bank => by cases bank <;> rfl) fun _ =>
        .inr (s.inRun_eq_true_iff.mpr run)).answered _ _ _)

theorem execCancelCommit_accepts (arg : BitVec 8) (s : State) : Accepts s (execCancelCommit arg s) := by
  by_cases pending : s.schedule.commit = .pending
  · rw [execCancelCommit_of_pending pending]
    exact .of_effect ((Effect.schedule s _ (fun bank => by cases bank <;> rfl) fun pending => by cases pending).answered _ _ _)
  · rw [execCancelCommit_of_not_pending pending]
    exact .answer s _ _ _

theorem execFlush_accepts (arg : BitVec 8) (s : State) : Accepts s (execFlush arg s) := by
  by_cases hmask : arg &&& 0x0F = 0
  · rw [execFlush_of_empty_mask hmask]
    exact .answer s _ _ _
  · rw [execFlush_of_mask hmask]
    exact .of_effect ((Effect.flush s _).answered _ _ _)

theorem execForce_accepts (arg : BitVec 8) (s : State) : Accepts s (execForce arg s) := by
  unfold execForce
  dsimp only
  split
  case h_1 | h_2 | h_3 => exact .of_effect ((Effect.setOutput s _).answered _ _ _)
  all_goals exact .answer s _ _ _

/-! ## Lane commands -/

/-- The settings of a state, as `Effect.configure` writes them, with the lanes' alone replaced. -/
theorem Effect.setLaneConfig (s : State) (lane : Lane) (f : LaneConfig → LaneConfig) (config : s.inRun = false)
    (range : ∀ c : LaneConfig, 1 ≤ c.filter ∧ c.filter ≤ 16 → 1 ≤ (f c).filter ∧ (f c).filter ≤ 16) :
    Effect s (s.setLaneConfig (s.laneConfig.update lane f)) := by
  refine .configure s _ s.table.window s.vote s.healthConfig s.queue.threshold config fun inv => { inv with filter := fun l => ?_ }
  dsimp only
  rw [Lanes.get_update]
  split
  · exact range _ (inv.filter lane)
  · exact inv.filter l

theorem Effect.setLaneEnable (s : State) (lane : Lane) (enable : Bool) (config : s.inRun = false) :
    Effect s (s.setLaneEnable lane enable) := .setLaneConfig s lane _ config fun _ => id

theorem execLaneEnable_accepts (arg : BitVec 8) (s : State) : Accepts s (execLaneEnable arg s) := by
  unfold execLaneEnable
  split
  · exact .answer s _ _ _
  · next lane _ =>
    cases run : s.inRun with
    | false => exact .of_effect ((Effect.setLaneEnable s lane true run).answered _ _ _)
    | true =>
      by_cases off : (s.health.get lane).state = .off
      · simp only [off, Bool.not_true, Bool.false_eq_true, ↓reduceIte]
        exact .of_effect ((Effect.enable s lane run off).answered _ _ _)
      · simp only [off, Bool.not_true, Bool.false_eq_true, ↓reduceIte]
        exact .answer s _ _ _

theorem execLaneDisable_accepts (arg : BitVec 8) (s : State) : Accepts s (execLaneDisable arg s) := by
  unfold execLaneDisable
  split
  · exact .answer s _ _ _
  · next lane _ =>
    cases run : s.inRun with
    | false => exact .of_effect ((Effect.setLaneEnable s lane false run).answered _ _ _)
    | true =>
      cases may : s.mayDisable lane with
      | false => exact .answer s _ _ _
      | true => exact .of_effect ((Effect.disable s lane run may).answered _ _ _)

theorem execLaneReadmit_accepts (arg : BitVec 8) (s : State) : Accepts s (execLaneReadmit arg s) := by
  unfold execLaneReadmit
  split
  · exact .answer s _ _ _
  · next lane _ =>
    split
    · next h =>
      obtain ⟨run, excluded⟩ := Bool.and_eq_true_iff.mp h
      exact .of_effect ((Effect.readmit s lane run (of_decide_eq_true excluded)).answered _ _ _)
    · exact .answer s _ _ _

theorem acknowledge_effect (s : State) : Effect s s.acknowledge := by
  unfold State.acknowledge
  split
  · exact .answer s _ _ _
  · next head rest records => exact (Effect.acknowledge s head rest records).answered _ _ _

/-! ## The entry window -/

theorem Schedule.report_entries (c : Schedule) (operation : BitVec 3) (index : BitVec 4) (r : EntryResult) (bank : Bank) :
    (c.report operation index r).entries bank = c.entries bank := by
  cases bank <;> rfl

/-- R119: a load changes the staging and what ECTL and ESTAT show. -/
theorem Effect.load (s : State) (operation : BitVec 3) (bank : Bank) (index : BitVec 4) :
    Effect s (s.setSchedule (s.schedule.load operation bank index)) := by
  unfold Schedule.load
  split
  · exact .schedule s _ (Schedule.report_entries { s.schedule with staging := _ } _ _ _) .inl
  · exact .schedule s _ (Schedule.report_entries _ _ _ _) .inl

theorem execStagingWrite_accepts (word : StagingWord) (value : Word) (s : State) : Accepts s (execStagingWrite word value s) :=
  .of_effect (.schedule s _ (fun bank => by cases bank <;> rfl) .inl)

/-! ## Settings -/

/-- R169: a write of CONFIG-only configuration has its own effect in CONFIG. -/
theorem Accepts.configOnly (s : State) {t : State} (h : s.inRun = false → Effect s t) : Accepts s (s.accept (s.configOnly t)) := by
  refine .of_effect ?_
  unfold State.configOnly
  cases run : s.inRun with
  | true => exact (Effect.setBusStatus s _ : Effect s s.busState)
  | false => exact h run

theorem execPrescaleWrite_accepts (value : Word) (s : State) : Accepts s (execPrescaleWrite value s) := by
  refine .configOnly s fun _ => ?_
  split
  · exact .setTimebase s _
  · exact .setBusStatus s _

theorem filterInRange_iff (f : Nat) : filterInRange f = true ↔ 1 ≤ f ∧ f ≤ 16 := by
  simp [filterInRange]

theorem execLcfgWrite_accepts (lane : Lane) (value : Word) (s : State) : Accepts s (execLcfgWrite lane value s) := by
  refine .configOnly s fun config => ?_
  split
  · exact .setBusStatus s _
  · split
    · next range => exact .setLaneConfig s lane _ config fun _ _ => (filterInRange_iff _).mp range
    · exact .setBusStatus s _

theorem execBlankWrite_accepts (lane : Lane) (value : Word) (s : State) : Accepts s (execBlankWrite lane value s) :=
  .configOnly s fun config => .setLaneConfig s lane _ config fun _ => id

theorem execGwinWrite_accepts (value : Word) (s : State) : Accepts s (execGwinWrite value s) := by
  refine .configOnly s fun config => ?_
  split
  · next range =>
    exact .configure s s.laneConfig value.toNat s.vote s.healthConfig s.queue.threshold config fun inv => { inv with window := range }
  · exact .setBusStatus s _

theorem fieldNat_lt (w : Word) (lo len : Nat) : fieldNat w lo len < 2 ^ len := BitVec.isLt _

theorem execVotecfgWrite_accepts (value : Word) (s : State) : Accepts s (execVotecfgWrite value s) :=
  .configOnly s fun config => .configure s s.laneConfig s.table.window _ s.healthConfig s.queue.threshold config fun inv =>
    { inv with tolerance := Nat.le_of_lt_succ (fieldNat_lt value 0 15) }

/-- A field that a write refuses at 0 lies in 1..2^len - 1. -/
theorem fieldNat_range {w : Word} {lo len : Nat} (h : fieldNat w lo len ≠ 0) :
    1 ≤ fieldNat w lo len ∧ fieldNat w lo len ≤ 2 ^ len - 1 :=
  ⟨Nat.pos_of_ne_zero h, Nat.le_sub_one_of_lt (fieldNat_lt w lo len)⟩

/-- R63 to R65: the health configuration written where neither field is 0. -/
theorem Effect.setHealthConfig (s : State) (h : HealthConfig) (a b : Nat) (config : s.inRun = false)
    (range : a ≠ 0 → b ≠ 0 → SettingsInv s → SettingsInv (s.setHealthConfig h)) :
    Effect s (if a = 0 || b = 0 then s.busValue else s.setHealthConfig h) := by
  split
  · exact .setBusStatus s _
  · next hne =>
    obtain ⟨ha, hb⟩ : a ≠ 0 ∧ b ≠ 0 := by simpa using hne
    exact .configure s s.laneConfig s.table.window s.vote h s.queue.threshold config (range ha hb)

theorem execHweightWrite_accepts (value : Word) (s : State) : Accepts s (execHweightWrite value s) :=
  .configOnly s fun config => .setHealthConfig s _ _ _ config fun hm hd inv =>
    { inv with missWeight := fieldNat_range hm, deviantWeight := fieldNat_range hd }

theorem execHlevelWrite_accepts (value : Word) (s : State) : Accepts s (execHlevelWrite value s) :=
  .configOnly s fun config => .setHealthConfig s _ _ _ config fun hs he inv =>
    { inv with suspect := fieldNat_range hs, exclude := fieldNat_range he }

theorem execHrunWrite_accepts (value : Word) (s : State) : Accepts s (execHrunWrite value s) :=
  .configOnly s fun config => .setHealthConfig s _ _ _ config fun hp hr inv =>
    { inv with probation := fieldNat_range hp, readmit := fieldNat_range hr }

theorem execQthrWrite_accepts (value : Word) (s : State) : Accepts s (execQthrWrite value s) := by
  refine .configOnly s fun config => ?_
  split
  · next range =>
    have range : 1 ≤ value.toNat ∧ value.toNat ≤ 32 := by simpa using range
    exact .configure s s.laneConfig s.table.window s.vote s.healthConfig value.toNat config fun inv => { inv with threshold := range }
  · exact .setBusStatus s _

theorem execSchcfgWrite_accepts (value : Word) (s : State) : Accepts s (execSchcfgWrite value s) :=
  .configOnly s fun _ => .schedule s _ (fun bank => by cases bank <;> rfl) .inl

/-! ## The register window -/

theorem execPairLowWrite_accepts (pair : WritablePair) (value : Word) (s : State) : Accepts s (execPairLowWrite pair value s) := by
  unfold execPairLowWrite
  split
  · exact .of_effect ((Effect.setWindow s _).trans (.writePair _ pair _))
  · exact .of_effect (.setBusStatus s _)

theorem execPairHighRead_accepts (pair : Pair) (s : State) : Accepts s (execPairHighRead pair s) := by
  unfold execPairHighRead
  split
  · exact .of_effect (.setWindow s _)
  · exact .of_effect ((Effect.setWindow s _).trans (.setBusStatus _ _))

/-- R155, R184: a write carried out, whichever command it makes. -/
theorem takeWrite_accepts (i : Instr) (hplace : ∀ arg place, i ≠ .ackEvent arg (some place)) (s : State) :
    Accepts s (takeWrite i s) := by
  cases i with
  | start arg => exact execStart_accepts arg s
  | stop arg => exact execStop_accepts arg s
  | softReset arg => exact .of_effect (.softReset s)
  | commit arg => exact execCommit_accepts arg s
  | cancelCommit arg => exact execCancelCommit_accepts arg s
  | flush arg => exact execFlush_accepts arg s
  | force arg => exact execForce_accepts arg s
  | laneEnable arg => exact execLaneEnable_accepts arg s
  | laneDisable arg => exact execLaneDisable_accepts arg s
  | laneReadmit arg => exact execLaneReadmit_accepts arg s
  | ackEvent arg during =>
    cases during with
    | none => exact .of_effect (acknowledge_effect s)
    | some place => exact absurd rfl (hplace arg place)
  | snapshot arg => exact .of_effect ((Effect.setStats s _).answered _ _ _)
  | clearCounters arg => exact .of_effect ((Effect.setStats s _).answered _ _ _)
  | illegal code arg => exact .answer s _ _ _
  | readShadow index => exact .of_effect (.load s _ _ _)
  | readActive index => exact .of_effect (.load s _ _ _)
  | write index => exact .of_effect (.writeEntry s index)
  | unknownOperation operation index => exact .of_effect (.schedule s _ (Schedule.report_entries _ _ _ _) .inl)
  | stagingWrite word value => exact execStagingWrite_accepts word value s
  | prescaleWrite value => exact execPrescaleWrite_accepts value s
  | lcfgWrite lane value => exact execLcfgWrite_accepts lane value s
  | blankWrite lane value => exact execBlankWrite_accepts lane value s
  | gwinWrite value => exact execGwinWrite_accepts value s
  | votecfgWrite value => exact execVotecfgWrite_accepts value s
  | hweightWrite value => exact execHweightWrite_accepts value s
  | hlevelWrite value => exact execHlevelWrite_accepts value s
  | hrunWrite value => exact execHrunWrite_accepts value s
  | qthrWrite value => exact execQthrWrite_accepts value s
  | schcfgWrite value => exact execSchcfgWrite_accepts value s
  | outcfgWrite value => exact .of_effect (.setOutput s _)
  | intenWrite value => exact .of_effect (.setInterrupt s _)
  | intflagWrite value => exact .of_effect (.setInterrupt s _)
  | busstatWrite value => exact .of_effect (.setWindow s _)
  | pairHighWrite pair value => exact .of_effect (.setWindow s _)
  | pairLowWrite pair value => exact execPairLowWrite_accepts pair value s
  | registerWrite | hardReset | laneSample | lastAcceptedDiscard | arrival | groupExpiry | stallExpiry | armedActionExpiry
  | pairLowRead | pairHighRead | timebaseAdvance => exact .refused s

/-! ## Every command -/

/-- Section 11.6: the ACK EVENT of a command word stands on its own. -/
theorem commandOfCode_ne_place (code arg arg' : BitVec 8) (place : AckPlace) :
    commandOfCode code arg ≠ .ackEvent arg' (some place) := by
  unfold commandOfCode
  split <;> nofun

theorem commandOfOperation_ne_place (operation : BitVec 3) (index : BitVec 4) (arg : BitVec 8) (place : AckPlace) :
    commandOfOperation operation index ≠ .ackEvent arg (some place) := by
  unfold commandOfOperation
  split <;> nofun

theorem commandOfWrite_ne_place (address : Address) (value : Word) (arg : BitVec 8) (place : AckPlace) :
    commandOfWrite address value ≠ .ackEvent arg (some place) := by
  unfold commandOfWrite
  split
  case h_1 => exact commandOfCode_ne_place _ _ _ _
  case h_28 => exact commandOfOperation_ne_place _ _ _ _
  all_goals nofun

/-- What a command shows at the lane pins, RESET asserted or not (log entry 1). -/
def State.shown (s : State) : Instr → State
  | .laneSample lane level => s.showLevel lane level
  | .ackEvent _ (some place) => s.present place.event
  | _ => s

/-- Every command but HARD_RESET answers the state its pins show, or while RESET is released an effect on it. -/
theorem exec_accepts (c : Instr) (hc : ∀ held, c ≠ .hardReset held) (s : State) : Accepts (s.shown c) (exec c s) := by
  cases c with
  | hardReset held => exact absurd rfl (hc held)
  | laneSample lane level => exact .of_effect (.act _ (.sample lane level))
  | arrival lane stamp => exact .of_effect (.act s (.arrival lane stamp))
  | groupExpiry rank => exact .of_effect (.act s (.groupExpiry rank))
  | lastAcceptedDiscard lane => exact execLastAcceptedDiscard_accepts lane s
  | stallExpiry => exact execStallExpiry_accepts s
  | armedActionExpiry => exact execArmedActionExpiry_accepts s
  | pairLowRead pair => exact .of_effect (.setWindow s _)
  | pairHighRead pair => exact execPairHighRead_accepts pair s
  | timebaseAdvance => exact execTimebaseAdvance_accepts s
  | ackEvent arg during =>
    cases during with
    | none => exact .of_effect (acknowledge_effect s)
    | some place => exact .of_effect (.actWithAcks _ place)
  | illegal code arg => exact takeWrite_accepts _ (commandOfCode_ne_place code arg) s
  | unknownOperation operation index => exact takeWrite_accepts _ (commandOfOperation_ne_place operation index) s
  | registerWrite address value => exact takeWrite_accepts _ (commandOfWrite_ne_place address value) s
  | start arg => exact takeWrite_accepts (.start arg) nofun s
  | stop arg => exact takeWrite_accepts (.stop arg) nofun s
  | softReset arg => exact takeWrite_accepts (.softReset arg) nofun s
  | commit arg => exact takeWrite_accepts (.commit arg) nofun s
  | cancelCommit arg => exact takeWrite_accepts (.cancelCommit arg) nofun s
  | flush arg => exact takeWrite_accepts (.flush arg) nofun s
  | force arg => exact takeWrite_accepts (.force arg) nofun s
  | laneEnable arg => exact takeWrite_accepts (.laneEnable arg) nofun s
  | laneDisable arg => exact takeWrite_accepts (.laneDisable arg) nofun s
  | laneReadmit arg => exact takeWrite_accepts (.laneReadmit arg) nofun s
  | snapshot arg => exact takeWrite_accepts (.snapshot arg) nofun s
  | clearCounters arg => exact takeWrite_accepts (.clearCounters arg) nofun s
  | readShadow index => exact takeWrite_accepts (.readShadow index) nofun s
  | readActive index => exact takeWrite_accepts (.readActive index) nofun s
  | write index => exact takeWrite_accepts (.write index) nofun s
  | stagingWrite word value => exact takeWrite_accepts (.stagingWrite word value) nofun s
  | prescaleWrite value => exact takeWrite_accepts (.prescaleWrite value) nofun s
  | lcfgWrite lane value => exact takeWrite_accepts (.lcfgWrite lane value) nofun s
  | blankWrite lane value => exact takeWrite_accepts (.blankWrite lane value) nofun s
  | gwinWrite value => exact takeWrite_accepts (.gwinWrite value) nofun s
  | votecfgWrite value => exact takeWrite_accepts (.votecfgWrite value) nofun s
  | hweightWrite value => exact takeWrite_accepts (.hweightWrite value) nofun s
  | hlevelWrite value => exact takeWrite_accepts (.hlevelWrite value) nofun s
  | hrunWrite value => exact takeWrite_accepts (.hrunWrite value) nofun s
  | qthrWrite value => exact takeWrite_accepts (.qthrWrite value) nofun s
  | schcfgWrite value => exact takeWrite_accepts (.schcfgWrite value) nofun s
  | outcfgWrite value => exact takeWrite_accepts (.outcfgWrite value) nofun s
  | intenWrite value => exact takeWrite_accepts (.intenWrite value) nofun s
  | intflagWrite value => exact takeWrite_accepts (.intflagWrite value) nofun s
  | busstatWrite value => exact takeWrite_accepts (.busstatWrite value) nofun s
  | pairHighWrite pair value => exact takeWrite_accepts (.pairHighWrite pair value) nofun s
  | pairLowWrite pair value => exact takeWrite_accepts (.pairLowWrite pair value) nofun s

end Sys2Proof.Machine
end

section
/-! PROOF. An invariant kept by every effect is kept by every step; the acts of events and completed pair writes, case by case. -/

namespace Sys2Proof.Machine

/-! ## From effects to steps -/

theorem State.shown_eq (s : State) (c : Instr) : ∃ pins, s.shown c = s.setLanePins pins := by
  unfold State.shown
  split
  · exact ⟨_, rfl⟩
  · next place =>
    cases place.event with
    | sample lane level => exact ⟨_, rfl⟩
    | arrival | groupExpiry => exact ⟨s.lanePins, rfl⟩
  · exact ⟨s.lanePins, rfl⟩

theorem exec_hardReset_eq (held : Bool) (s : State) : exec (.hardReset held) s = execHardReset s held := by
  rfl

/-- What holds after a hard reset, looks at no lane pin and is kept by every effect is kept by every command. -/
theorem exec_keeps {P : State → Prop}
    (reset : ∀ held pins pending, P (((State.reset.setResetAsserted held).setLanePins pins).setPending pending))
    (pins : ∀ s x, P s → P (s.setLanePins x)) (effect : ∀ s t, Effect s t → P s → P t)
    {c : Instr} {s t : State} (hs : P s) (ht : exec c s = .next t) : P t := by
  by_cases hc : ∃ held, c = .hardReset held
  · obtain ⟨held, rfl⟩ := hc
    rw [exec_hardReset_eq] at ht
    cases ht
    exact reset held s.lanePins s.pending
  · obtain ⟨x, hx⟩ := s.shown_eq c
    refine effect _ t ((exec_accepts c (fun held h => hc ⟨held, h⟩) s).next ht) ?_
    rw [hx]
    exact pins s x hs

/-- The same of every step, where the waiting commands are not looked at either. -/
theorem step_keeps {P : State → Prop}
    (reset : ∀ held pins pending, P (((State.reset.setResetAsserted held).setLanePins pins).setPending pending))
    (pins : ∀ s x, P s → P (s.setLanePins x)) (pending : ∀ s x, P s → P (s.setPending x))
    (effect : ∀ s t, Effect s t → P s → P t) {s t : State} (hs : P s) (ht : step s = .next t) : P t := by
  unfold step at ht
  split at ht
  · cases ht
    exact hs
  · exact exec_keeps reset pins effect (pending s _ hs) ht

/-! ## The acts of events -/

/-- R5, R22, R28, R153: an act does nothing, or in RUN writes front ends and counters, gives the table an arrival after that, or
expires a group. -/
theorem State.act_cases (s : State) (e : TickEvent) :
    s.act e = s ∨ s.inRun = true ∧
      ((∃ fs st, s.act e = (s.setFrontEnds fs).setStats st) ∨
        (∃ fs st lane stamp, s.act e = ((s.setFrontEnds fs).setStats st).takeArrival lane stamp) ∨
        ∃ rank g, s.act e = s.expireGroup rank g) := by
  cases e with
  | sample lane level =>
    simp only [State.act, State.sampleLane]
    split
    · next pending =>
      have run : s.inRun = true := by simp only [State.samplePending, State.samples, Bool.and_eq_true] at pending; exact pending.1.1
      obtain ⟨fs, st, h | ⟨stamp, h⟩⟩ := s.takeSample_cases lane level
      · exact .inr ⟨run, .inl ⟨fs, st, h⟩⟩
      · exact .inr ⟨run, .inr (.inl ⟨fs, st, lane, stamp, h⟩)⟩
    · exact .inl rfl
  | arrival lane stamp =>
    simp only [State.act, State.arrive]
    split
    · next taken =>
      have run : s.inRun = true := by simp only [State.samples, Bool.and_eq_true] at taken; exact taken.1.1
      exact .inr ⟨run, .inr (.inl ⟨s.frontEnds, s.stats, lane, stamp, rfl⟩)⟩
    · exact .inl rfl
  | groupExpiry rank =>
    simp only [State.act, State.expireRank]
    split
    · next g _ =>
      split
      · next due => exact .inr ⟨(Bool.and_eq_true_iff.mp due).1, .inr (.inr ⟨rank, g, rfl⟩)⟩
      · exact .inl rfl
    · exact .inl rfl

/-- What is kept in RUN by the front ends and counters, by an arrival and by an expiry is kept by every act. -/
theorem State.act_keeps {P : State → Prop} (inputs : ∀ s fs st, P s → P ((s.setFrontEnds fs).setStats st))
    (arrival : ∀ s lane stamp, s.inRun = true → P s → P (s.takeArrival lane stamp))
    (expiry : ∀ s rank g, s.inRun = true → P s → P (s.expireGroup rank g)) {s : State} (h : P s) (e : TickEvent) : P (s.act e) := by
  obtain hact | ⟨run, ⟨fs, st, hact⟩ | ⟨fs, st, lane, stamp, hact⟩ | ⟨rank, g, hact⟩⟩ := s.act_cases e
  · rw [hact]; exact h
  · rw [hact]; exact inputs s fs st h
  · rw [hact]; exact arrival _ lane stamp run (inputs s fs st h)
  · rw [hact]; exact expiry s rank g run h

/-- R109: what looks at no more of the queue than its threshold, and at no more of the command unit than the part state, is kept by an
act with ACK EVENTs within it where it is kept by the act. -/
theorem State.actWithAcks_keeps {P : State → Prop}
    (queue : ∀ (s : State) (q : EventQueue), q.threshold = s.queue.threshold → P s → P (s.setQueue q))
    (command : ∀ (s : State) (c : CommandUnit), c.partState = s.command.partState → P s → P (s.setCommand c))
    (act : ∀ (s : State) (e : TickEvent), P s → P (s.act e)) {s : State} (h : P s) (place : AckPlace) : P (s.actWithAcks place) := by
  have begun : P (s.awaitAcks (place.after :: place.further)) := queue s _ (s.queue.await_threshold _) h
  exact command (((s.awaitAcks _).act place.event).setQueue _) _ rfl
    (queue _ { (((s.awaitAcks _).act place.event).queue.endAct) with ackAnswer := .none } (EventQueue.endAct_threshold _)
      (act _ place.event begun))

/-! ## Completed pair writes -/

theorem Limits.inRange_iff (l : Limits) :
    l.inRange = true ↔ 1 ≤ l.lower.toNat ∧ l.lower.toNat < l.upper.toNat ∧ l.upper.toNat < 2 ^ 28 := by
  simp [Limits.inRange, Config.periodBound, and_assoc]

/-- R93 to R95: in CONFIG a completed write sets the limits; in RUN it is refused, or sets limits in range where they were in range,
or sets a timeout in range, which may make the tracker expire. -/
theorem State.writePair_cases (s : State) (pair : WritablePair) (v : Time) :
    (s.inRun = false ∧ ∃ l, s.writePair pair v = s.setLimits l) ∨
    (s.inRun = true ∧ (s.writePair pair v = s.busValue ∨
      (∃ l, l.timeout = s.limits.timeout ∧ (s.limits.inRange = true → l.inRange = true) ∧ s.writePair pair v = s.takeLimits l) ∨
      ∃ u, u = s.setLimits { s.limits with timeout := v } ∧ timeoutInRange v s.table.window s.table.settle = true ∧
        (s.writePair pair v = u ∨ s.writePair pair v = u.expireStall))) := by
  cases run : s.inRun with
  | false =>
    refine .inl ⟨rfl, ?_⟩
    cases pair with
    | pmin => exact ⟨{ s.limits with lower := v }, by simp [State.writePair, State.writePmin, run]⟩
    | pmax => exact ⟨{ s.limits with upper := v }, by simp [State.writePair, State.writePmax, run]⟩
    | stallto => exact ⟨{ s.limits with timeout := v }, by simp [State.writePair, State.writeStallto, run]⟩
  | true =>
    refine .inr ⟨rfl, ?_⟩
    cases pair with
    | pmin =>
      simp only [State.writePair, State.writePmin, run, ↓reduceIte]
      split
      · next range =>
        refine .inr (.inl ⟨{ s.limits with lower := v }, rfl, fun old => ?_, rfl⟩)
        obtain ⟨hlower, hless⟩ : 1 ≤ v.toNat ∧ v.toNat < s.limits.upper.toNat := by simpa using range
        exact (Limits.inRange_iff _).mpr ⟨hlower, hless, ((Limits.inRange_iff _).mp old).2.2⟩
      · exact .inl rfl
    | pmax =>
      simp only [State.writePair, State.writePmax, run, ↓reduceIte]
      split
      · next range =>
        refine .inr (.inl ⟨{ s.limits with upper := v }, rfl, fun old => ?_, rfl⟩)
        obtain ⟨hless, hupper⟩ : s.limits.lower.toNat < v.toNat ∧ v.toNat < 2 ^ 28 := by simpa [Config.periodBound] using range
        exact (Limits.inRange_iff _).mpr ⟨((Limits.inRange_iff _).mp old).1, hless, hupper⟩
      · exact .inl rfl
    | stallto =>
      simp only [State.writePair, State.writeStallto, run, ↓reduceIte]
      split
      · next range =>
        refine .inr (.inr ⟨_, rfl, range, ?_⟩)
        split
        · exact .inr rfl
        · exact .inl rfl
      · exact .inl rfl

theorem State.writePair_partState (s : State) (pair : WritablePair) (v : Time) :
    (s.writePair pair v).command.partState = s.command.partState := by
  obtain ⟨_, _, _, _, _, _, h⟩ := s.writePair_shape pair v
  rw [h]

end Sys2Proof.Machine
end

section
/-! PROOF. The event queue (R98, R99, R104, R105): every step keeps its invariant, and leaves no ACK EVENT awaited. -/

namespace Sys2Proof.Machine

open EventQueue

/-- What offers, a removed head, a new threshold, an emptied queue and an act with ACK EVENTs keep of the queue is kept by every
effect. -/
theorem Effect.keeps_queue {Q : EventQueue → Prop} (offered : ∀ q q', Offered q q' → Q q → Q q')
    (tail : ∀ q head rest, q.records = head :: rest → Q q → Q { q with records := rest })
    (threshold : ∀ q k, Q q → Q { q with threshold := k }) (empty : ∀ q, Q q → Q { q with records := [], seq := 0 })
    (acks : ∀ s place, Q s.queue → Q (State.actWithAcks s place).queue) {s t : State} (h : Effect s t) : Q s.queue → Q t.queue := by
  induction h with
  | refl | registers | dueSamples | discard | schedule | writeEntry | flush => exact id
  | trans _ _ first second => exact second ∘ first
  | act s e => exact offered _ _ (s.act_offered e)
  | actWithAcks s place => exact acks s place
  | acknowledge s head rest records => exact tail _ head rest records
  | stall s => exact offered _ _ s.expireStall_offered
  | armedExpiry s x rest => rw [State.expireArmed_queue]; exact id
  | start s => exact offered _ _ s.startRun_offered
  | stop s => exact offered _ _ s.stopRun_offered
  | softReset s => exact empty s.queue
  | configure s _ _ _ _ k => exact threshold s.queue k
  | enable s lane => exact offered _ _ (s.enableLane_offered lane)
  | disable s lane => exact offered _ _ (s.disableLane_offered lane)
  | readmit s lane => exact offered _ _ (s.commandLane_offered lane _ _)
  | writePair s pair v => exact offered _ _ (s.writePair_offered pair v)

theorem Effect.queueInv {s t : State} (h : Effect s t) : QueueInv s.queue → QueueInv t.queue :=
  h.keeps_queue (fun _ _ offered hq => offered.inv hq) (fun _ _ _ records hq => hq.tail records) (fun _ k hq => hq.threshold k)
    (fun _ _ => .empty _ _ _ _) fun _ place hq => State.actWithAcks_inv hq place

theorem Effect.noAcks {s t : State} (h : Effect s t) : s.queue.acks = [] → t.queue.acks = [] :=
  h.keeps_queue (Q := fun q => q.acks = []) (fun _ _ offered hq => offered.acks hq) (fun _ _ _ _ hq => hq) (fun _ _ hq => hq)
    (fun _ hq => hq) fun s place _ => s.actWithAcks_acks place

/-- Settles O6: an effect reaches the queue by offers, a removed head, a threshold, an act with its ACK EVENTs or a soft reset. -/
theorem stepKeepsTheEventQueue : Obligations.StepKeepsTheEventQueue := by
  refine ⟨fun s t hs ht => ?invariant, fun s t hs ht => ?noAcks⟩
  case invariant =>
    exact step_keeps (P := fun s => QueueInv s.queue) (fun _ _ _ => .empty _ _ _ _) (fun _ _ => id) (fun _ _ => id)
      (fun _ _ effect => effect.queueInv) hs ht
  case noAcks =>
    exact step_keeps (P := fun s => s.queue.acks = []) (fun _ _ _ => rfl) (fun _ _ => id) (fun _ _ => id)
      (fun _ _ effect => effect.noAcks) hs ht

end Sys2Proof.Machine
end

section
/-! PROOF. Lane health (R59, R60, R68, R69, R72): every step keeps the settings in their ranges and a voting lane in RUN. -/

namespace Sys2Proof.Machine

/-! ## Settings -/

theorem SettingsInv.kept {s t : State} (h : SettingsInv s) (k : Kept s t) (lanes : t.laneConfig = s.laneConfig)
    (vote : t.vote = s.vote) (health : t.healthConfig = s.healthConfig) : SettingsInv t :=
  h.congr lanes k.settle k.window vote health k.threshold

theorem SettingsInv.takeArrival {s : State} (h : SettingsInv s) (lane : Lane) (t : Time) : SettingsInv (s.takeArrival lane t) :=
  h.kept (s.takeArrival_kept lane t) (s.takeArrival_laneConfig lane t) (s.takeArrival_vote lane t) (s.takeArrival_healthConfig lane t)

theorem SettingsInv.expireGroup {s : State} (h : SettingsInv s) (rank : Nat) (g : OpenGroup) : SettingsInv (s.expireGroup rank g) :=
  h.kept (s.expireGroup_kept rank g) (s.expireGroup_laneConfig rank g) (s.expireGroup_vote rank g) (s.expireGroup_healthConfig rank g)

/-- R14, R77, R78: a lane's filter length stays where its enable changes. -/
theorem SettingsInv.setLaneEnable {s : State} (h : SettingsInv s) (lane : Lane) (enable : Bool) :
    SettingsInv (s.setLaneEnable lane enable) := by
  refine { h with filter := fun l => ?_ }
  simp only [State.setLaneEnable, State.setLaneConfig_laneConfig, Lanes.get_update]
  split
  · exact h.filter lane
  · exact h.filter l

theorem SettingsInv.act {s : State} (h : SettingsInv s) (e : TickEvent) : SettingsInv (s.act e) :=
  State.act_keeps (fun _ _ _ h => h.congr rfl rfl rfl rfl rfl rfl) (fun _ lane t _ h => h.takeArrival lane t)
    (fun _ rank g _ h => h.expireGroup rank g) h e

theorem SettingsInv.actWithAcks {s : State} (h : SettingsInv s) (place : AckPlace) : SettingsInv (s.actWithAcks place) :=
  State.actWithAcks_keeps (fun _ _ hq h => h.congr rfl rfl rfl rfl rfl hq) (fun _ _ _ h => h.congr rfl rfl rfl rfl rfl rfl)
    (fun _ e h => h.act e) h place

/-- R19: the allowance START stores follows from filter lengths of 1..16. -/
theorem settleAllowance_le {c : Lanes LaneConfig} (h : ∀ l, 1 ≤ (c.get l).filter ∧ (c.get l).filter ≤ 16) :
    settleAllowance c ≤ 15 := by
  obtain ⟨ha, hb, hc⟩ : c.a.filter ≤ 16 ∧ c.b.filter ≤ 16 ∧ c.c.filter ≤ 16 := ⟨(h .a).2, (h .b).2, (h .c).2⟩
  unfold settleAllowance
  omega

theorem State.stopGroups_kept (s : State) : Kept s s.stopGroups := (s.setGroups_kept []).trans (State.closeGroups_kept _ _ _)

theorem State.stopRun_health (s : State) : s.stopRun.health = idleLanes := by
  obtain ⟨u, -, h⟩ := s.stopRun_shape
  rw [h]

theorem State.stopRun_inRun (s : State) : s.stopRun.inRun = false := by
  obtain ⟨u, -, h⟩ := s.stopRun_shape
  rw [h]
  rfl

theorem State.stopRun_table (s : State) :
    s.stopRun.table.settle = s.table.settle ∧ s.stopRun.table.window = s.table.window := by
  obtain ⟨u, rfl, h⟩ := s.stopRun_shape
  rw [h]
  exact ⟨s.stopGroups_kept.settle, s.stopGroups_kept.window⟩

/-- R165: what SOFT RESET writes. -/
theorem State.softReset_eq (s : State) : s.softReset =
    { s with
      table := { s.table with groups := [], seq := 0, settle := 0 }
      health := idleLanes
      frontEnds := Lanes.build fun _ => .stopped
      tracker := .cleared 0 0
      armed := []
      output := { s.output with latch := s.output.safe }
      schedule := s.schedule.softReset
      queue := { s.queue with records := [], seq := 0 }
      stats := { live := .zero, bank := .zero, time := 0, taken := false }
      interrupt := { s.interrupt with flags := .clear }
      window := s.window.softReset
      command := { partState := .config, entryCause := .soft, code := 0, result := .none, startError := 0 } } := by
  simp only [State.softReset, State.setTable, State.setHealth, State.stopFrontEnds, State.setFrontEnds, State.setTracker,
    State.setArmed, State.safeLatches, State.setOutput, State.setSchedule, State.setQueue, State.setStats, State.setInterrupt,
    State.setWindow, State.setCommand]

theorem Effect.settingsInv {s t : State} (h : Effect s t) : SettingsInv s → SettingsInv t := by
  induction h with
  | refl => exact id
  | trans _ _ first second => exact second ∘ first
  | registers | dueSamples | discard | schedule | writeEntry | flush | acknowledge =>
    exact fun h => h.congr rfl rfl rfl rfl rfl rfl
  | act s e => exact fun h => h.act e
  | actWithAcks s place => exact fun h => h.actWithAcks place
  | stall s =>
    rw [State.expireStall_eq]
    exact fun h => h.congr rfl rfl rfl rfl rfl (EventQueue.offer_threshold _ _)
  | armedExpiry s x rest =>
    rw [State.expireArmed_eq]
    exact fun h => h.congr rfl rfl rfl rfl rfl rfl
  | start s =>
    rw [State.startRun_eq]
    intro h
    have settle : SettingsInv (s.setTable { s.table with settle := settleAllowance s.laneConfig }) :=
      { h with settle := settleAllowance_le h.filter }
    exact settle.congr rfl rfl rfl rfl rfl (EventQueue.offer_threshold _ _)
  | stop s =>
    exact fun h => h.congr (by simp) s.stopRun_table.1 s.stopRun_table.2 (by simp) (by simp) s.stopRun_offered.threshold
  | softReset s =>
    rw [State.softReset_eq]
    exact fun h => { h with settle := Nat.zero_le 15 }
  | configure s _ _ _ _ _ _ range => exact range
  | enable s lane =>
    rw [State.enableLane_eq]
    exact fun h => (h.setLaneEnable lane true).congr rfl rfl rfl rfl rfl (EventQueue.offer_threshold _ _)
  | disable s lane =>
    intro h
    rw [State.disableLane_eq]
    refine SettingsInv.kept ?_ (State.closeComplete_kept _) (State.closeComplete_laneConfig _) (State.closeComplete_vote _)
      (State.closeComplete_healthConfig _)
    exact (h.setLaneEnable lane false).congr rfl rfl rfl rfl rfl (EventQueue.offer_threshold _ _)
  | readmit s lane =>
    rw [State.commandLane_eq]
    exact fun h => h.congr rfl rfl rfl rfl rfl (EventQueue.offer_threshold _ _)
  | writePair s pair v =>
    obtain ⟨_, _, _, _, _, hq, h⟩ := s.writePair_shape pair v
    rw [h]
    exact fun h => h.congr rfl rfl rfl rfl rfl hq

/-! ## Health records -/

theorem HealthInv.takeArrival {s : State} (c : SettingsInv s) (h : HealthInv s) (run : s.inRun = true) (lane : Lane) (t : Time) :
    HealthInv (s.takeArrival lane t) :=
  h.assessed c run (by simp) (by simp) (s.takeArrival_assessed lane t)

theorem HealthInv.expireGroup {s : State} (c : SettingsInv s) (h : HealthInv s) (run : s.inRun = true) (rank : Nat) (g : OpenGroup) :
    HealthInv (s.expireGroup rank g) :=
  h.assessed c run (by simp) (by simp) (s.expireGroup_assessed rank g)

theorem HealthInv.closeComplete {s : State} (c : SettingsInv s) (h : HealthInv s) (run : s.inRun = true) :
    HealthInv s.closeComplete :=
  h.assessed c run (by simp) (by simp) s.closeComplete_assessed

/-- The settings and the health monitor, kept together. -/
structure MonitorInv (s : State) : Prop where
  settings : SettingsInv s
  health : HealthInv s

theorem MonitorInv.congr {s t : State} (h : MonitorInv s) (settings : SettingsInv t)
    (partState : t.command.partState = s.command.partState) (health : t.health = s.health)
    (config : t.healthConfig = s.healthConfig) : MonitorInv t :=
  ⟨settings, h.health.congr partState health config⟩

theorem MonitorInv.act {s : State} (h : MonitorInv s) (e : TickEvent) : MonitorInv (s.act e) :=
  State.act_keeps (fun _ _ _ h => h.congr (h.settings.congr rfl rfl rfl rfl rfl rfl) rfl rfl rfl)
    (fun _ lane t run h => ⟨h.settings.takeArrival lane t, h.health.takeArrival h.settings run lane t⟩)
    (fun _ rank g run h => ⟨h.settings.expireGroup rank g, h.health.expireGroup h.settings run rank g⟩) h e

theorem MonitorInv.actWithAcks {s : State} (h : MonitorInv s) (place : AckPlace) : MonitorInv (s.actWithAcks place) :=
  State.actWithAcks_keeps (fun _ _ hq h => h.congr (h.settings.congr rfl rfl rfl rfl rfl hq) rfl rfl rfl)
    (fun _ _ hc h => h.congr (h.settings.congr rfl rfl rfl rfl rfl rfl) hc rfl rfl) (fun _ e h => h.act e) h place

/-- R78: LANE DISABLE is accepted where another lane votes, or where the lane itself does not vote (R60). -/
theorem HealthInv.otherVoter_of_mayDisable {s : State} (h : HealthInv s) (run : s.inRun = true) {lane : Lane}
    (may : s.mayDisable lane = true) : ∃ l, l ≠ lane ∧ (s.health.get l).state.votes = true := by
  unfold State.mayDisable at may
  split at may
  case h_1 hstate | h_2 hstate => exact h.voterElsewhere run (by rw [hstate]; rfl)
  case h_3 | h_4 =>
    obtain ⟨l, hl⟩ := (Lane.any_iff _).mp may
    exact ⟨l, by simpa using hl⟩
  all_goals cases may

/-- R61: after START every lane is ACTIVE or OFF, by its enable, and one is enabled. -/
theorem HealthInv.startRun {s : State} (c : SettingsInv s) (checks : s.startError = 0) : HealthInv s.startRun := by
  have some : ∃ l, (s.laneConfig.get l).enable = true := by
    refine (Lane.any_iff _).mp (Bool.not_eq_false _ ▸ fun none => ?_ : s.someLaneEnabled = true)
    simp [State.startError, none] at checks
  have hget : ∀ l, s.startRun.health.get l = .fresh (startState (s.laneConfig.get l).enable) := fun l => by
    rw [State.startRun_eq]; simp [State.startStates]
  have hstate : ∀ l, startState (s.laneConfig.get l).enable = .active ∨ startState (s.laneConfig.get l).enable = .off := fun l => by
    cases (s.laneConfig.get l).enable
    · exact .inr rfl
    · exact .inl rfl
  have run : s.startRun.inRun = true := by rw [State.startRun_eq]; rfl
  refine HealthRunInv.healthInv ⟨fun l => ?_, fun l => ?_, ?_, fun l => ?_⟩ run
  · rw [hget, State.startRun_healthConfig]
    refine .fresh c.healthConfigInv ?_
    obtain h | h := hstate l <;> rw [h] <;> nofun
  · rw [hget]
    obtain h | h := hstate l <;> simp [HealthRecord.fresh, h]
  · obtain ⟨l, hl⟩ := some
    exact ⟨l, by rw [hget, hl]; rfl⟩
  · rw [hget, State.startRun_healthConfig, HealthRecord.fresh_overLimit c.healthConfigInv]
    nofun

/-- R77 to R79: a lane command that leaves its lane in a state that does not vote, where another lane does. -/
theorem HealthInv.commandLane {s : State} (c : SettingsInv s) (h : HealthInv s) (run : s.inRun = true) {lane : Lane} {st : LaneState}
    (cause : LaneCause) (hsuspect : st ≠ .suspect) (hvotes : st.votes = false) (hidle : st ≠ .idle)
    (other : ∃ l, l ≠ lane ∧ (s.health.get l).state.votes = true) : HealthInv (s.commandLane lane st cause) := by
  rw [State.commandLane_eq]
  exact (h.setFresh c run hsuspect hvotes hidle other).congr rfl rfl rfl

theorem Effect.healthInv {s t : State} (h : Effect s t) : MonitorInv s → MonitorInv t := by
  induction h with
  | refl => exact id
  | trans _ _ first second => exact second ∘ first
  | registers s tb o cmd i st w hp =>
    exact fun h => h.congr ((Effect.registers s tb o cmd i st w hp).settingsInv h.settings) hp rfl rfl
  | dueSamples | discard | schedule | writeEntry | flush | acknowledge =>
    exact fun h => h.congr (h.settings.congr rfl rfl rfl rfl rfl rfl) rfl rfl rfl
  | act s e => exact fun h => h.act e
  | actWithAcks s place => exact fun h => h.actWithAcks place
  | stall s due => exact fun h => h.congr ((Effect.stall s due).settingsInv h.settings) (by simp) (by simp) (by simp)
  | armedExpiry s x rest run armed =>
    exact fun h => h.congr ((Effect.armedExpiry s x rest run armed).settingsInv h.settings) (by simp) (by simp) (by simp)
  | start s config checks =>
    exact fun h => ⟨(Effect.start s config checks).settingsInv h.settings, .startRun h.settings checks⟩
  | stop s run =>
    intro h
    have settings := (Effect.stop s run).settingsInv h.settings
    exact ⟨settings, .idle settings s.stopRun_inRun s.stopRun_health⟩
  | softReset s =>
    intro h
    have settings := (Effect.softReset s).settingsInv h.settings
    rw [State.softReset_eq] at settings ⊢
    exact ⟨settings, .idle settings rfl rfl⟩
  | configure s lanes window vote health threshold config range =>
    exact fun h => ⟨range h.settings, .idle (range h.settings) config (h.health.eq_idle config)⟩
  | enable s lane run off =>
    intro h
    have other := h.health.voterElsewhere run (by rw [off]; rfl)
    refine ⟨(Effect.enable s lane run off).settingsInv h.settings, ?_⟩
    rw [State.enableLane_eq]
    exact (h.health.setFresh h.settings run (by nofun) rfl (by nofun) other).congr rfl rfl rfl
  | disable s lane run may =>
    intro h
    have other := h.health.otherVoter_of_mayDisable run may
    refine ⟨(Effect.disable s lane run may).settingsInv h.settings, ?_⟩
    have off : HealthInv (s.setLaneHealth lane (.fresh .off)) := h.health.setFresh h.settings run (by nofun) rfl (by nofun) other
    rw [State.disableLane_eq]
    exact .closeComplete ((h.settings.setLaneEnable lane false).congr rfl rfl rfl rfl rfl (EventQueue.offer_threshold _ _))
      (off.congr rfl rfl rfl) run
  | readmit s lane run excluded =>
    exact fun h => ⟨(Effect.readmit s lane run excluded).settingsInv h.settings, .commandLane h.settings h.health run .readmit
      (by nofun) rfl (by nofun) (h.health.voterElsewhere run (by rw [excluded]; rfl))⟩
  | writePair s pair v =>
    intro h
    have settings := (Effect.writePair s pair v).settingsInv h.settings
    obtain ⟨_, _, _, _, _, _, hw⟩ := s.writePair_shape pair v
    rw [hw] at settings ⊢
    exact h.congr settings rfl rfl rfl

theorem SettingsInv.reset (held : Bool) (pins : Lanes Bool) (pending : List Instr) :
    SettingsInv (((State.reset.setResetAsserted held).setLanePins pins).setPending pending) := by
  have inv : SettingsInv State.reset := by
    constructor
    case filter => intro l; cases l <;> decide
    all_goals decide
  exact inv.congr rfl rfl rfl rfl rfl rfl

theorem MonitorInv.reset (held : Bool) (pins : Lanes Bool) (pending : List Instr) :
    MonitorInv (((State.reset.setResetAsserted held).setLanePins pins).setPending pending) :=
  ⟨.reset held pins pending, .idle (.reset held pins pending) rfl rfl⟩

theorem MonitorInv.step {s t : State} (h : MonitorInv s) (ht : step s = .next t) : MonitorInv t :=
  step_keeps .reset (fun _ _ h => h.congr (h.settings.congr rfl rfl rfl rfl rfl rfl) rfl rfl rfl)
    (fun _ _ h => h.congr (h.settings.congr rfl rfl rfl rfl rfl rfl) rfl rfl rfl) (fun _ _ effect => effect.healthInv) h ht

/-- Settles O7: the settings' ranges are kept beside the health monitor's invariant, and every effect keeps both. -/
theorem stepKeepsAVotingLane : Obligations.StepKeepsAVotingLane := fun _ _ settings health ht =>
  (MonitorInv.step ⟨settings, health⟩ ht).health

end Sys2Proof.Machine
end

section
/-! PROOF. The group table (R17, R18, R20, R25, R30, R36): every step keeps its invariant. -/

namespace Sys2Proof.Machine

theorem State.takeArrival_inRun (s : State) (lane : Lane) (t : Time) : (s.takeArrival lane t).inRun = s.inRun :=
  State.inRun_congr (by simp)

theorem State.expireGroup_inRun (s : State) (rank : Nat) (g : OpenGroup) : (s.expireGroup rank g).inRun = s.inRun :=
  State.inRun_congr (by simp)

theorem State.closeComplete_inRun (s : State) : s.closeComplete.inRun = s.inRun :=
  State.inRun_congr (by simp)

theorem GroupInv.takeArrival {s : State} (h : GroupInv s) (run : s.inRun = true) (lane : Lane) (t : Time) :
    GroupInv (s.takeArrival lane t) :=
  (s.takeArrival_inv h.openGroups lane t).groupInv ((s.takeArrival_inRun lane t).trans run)

theorem GroupInv.expireGroup {s : State} (h : GroupInv s) (run : s.inRun = true) (rank : Nat) (g : OpenGroup) :
    GroupInv (s.expireGroup rank g) :=
  (s.expireGroup_inv h.openGroups rank g).groupInv ((s.expireGroup_inRun rank g).trans run)

theorem GroupInv.act {s : State} (h : GroupInv s) (e : TickEvent) : GroupInv (s.act e) :=
  State.act_keeps (fun _ _ _ h => h.congr rfl rfl rfl rfl rfl) (fun _ lane t run h => h.takeArrival run lane t)
    (fun _ rank g run h => h.expireGroup run rank g) h e

theorem GroupInv.actWithAcks {s : State} (h : GroupInv s) (place : AckPlace) : GroupInv (s.actWithAcks place) :=
  State.actWithAcks_keeps (fun _ _ _ h => h.congr rfl rfl rfl rfl rfl) (fun _ _ hc h => h.congr hc rfl rfl rfl rfl)
    (fun _ e h => h.act e) h place

/-- R25: a group that lacks a lane waited for still lacks it where more lanes are waited for. -/
theorem OpenGroup.incomplete_of_waits {g : OpenGroup} {a b : Lanes LaneState}
    (more : ∀ l, (a.get l).waits = true → (b.get l).waits = true)
    (h : g.complete a = false) : g.complete b = false := by
  rw [Bool.eq_false_iff] at h ⊢
  intro hb
  refine h ((Lane.every_iff _).mpr fun l => ?_)
  have := (Lane.every_iff _).mp hb l
  cases ha : (a.get l).waits
  · rfl
  · simpa [more l ha] using this

/-- A lane's state changed to one that is waited for leaves no group complete. -/
theorem GroupInv.setLaneHealth {s : State} (h : GroupInv s) (lane : Lane) (r : HealthRecord) (waits : r.state.waits = true) :
    GroupInv (s.setLaneHealth lane r) := by
  refine ⟨h.config, h.atMost, h.groups, fun g hg => OpenGroup.incomplete_of_waits (fun l => ?_) (h.incomplete g hg)⟩
  simp only [State.laneStates_get, State.setLaneHealth, State.setHealth_health, Lanes.get_set]
  split
  · exact fun _ => waits
  · exact id

theorem GroupInv.closeComplete {s : State} (atMost : s.table.groups.length ≤ 4)
    (groups : ∀ g ∈ s.table.groups, OpenGroupInv s.table g) (run : s.inRun = true) : GroupInv s.closeComplete :=
  (s.closeComplete_inv atMost groups).groupInv (s.closeComplete_inRun.trans run)

theorem State.startRun_inRun (s : State) : s.startRun.inRun = true := by
  rw [State.startRun_eq]
  rfl

theorem State.stopRun_groups (s : State) : s.stopRun.table.groups = [] := by
  obtain ⟨u, rfl, h⟩ := s.stopRun_shape
  rw [h]
  simp [State.stopGroups, State.closeGroups_table]

theorem Effect.groupInv {s t : State} (h : Effect s t) : GroupInv s → GroupInv t := by
  induction h with
  | refl => exact id
  | trans _ _ first second => exact second ∘ first
  | registers s tb o cmd i st w hp => exact fun h => h.congr hp rfl rfl rfl rfl
  | dueSamples | discard | schedule | writeEntry | flush | acknowledge => exact fun h => h.congr rfl rfl rfl rfl rfl
  | act s e => exact fun h => h.act e
  | actWithAcks s place => exact fun h => h.actWithAcks place
  | stall s =>
    rw [State.expireStall_eq]
    exact fun h => h.congr rfl rfl rfl rfl rfl
  | armedExpiry s x rest =>
    rw [State.expireArmed_eq]
    exact fun h => h.congr rfl rfl rfl rfl rfl
  | start s =>
    rw [State.startRun_eq]
    exact fun _ => .empty rfl
  | stop s => exact fun _ => .empty s.stopRun_groups
  | softReset s =>
    rw [State.softReset_eq]
    exact fun _ => .empty rfl
  | configure s _ _ _ _ _ config => exact fun h => .empty (h.config config)
  | enable s lane run off =>
    rw [State.enableLane_eq]
    exact fun h => (h.setLaneHealth lane (.fresh .probation) rfl).congr rfl rfl rfl rfl rfl
  | disable s lane run =>
    rw [State.disableLane_eq]
    exact fun h => GroupInv.closeComplete h.atMost h.groups run
  | readmit s lane =>
    rw [State.commandLane_eq]
    exact fun h => (h.setLaneHealth lane (.fresh .probation) rfl).congr rfl rfl rfl rfl rfl
  | writePair s pair v =>
    have hp := s.writePair_partState pair v
    obtain ⟨_, _, _, _, _, _, h⟩ := s.writePair_shape pair v
    rw [h] at hp ⊢
    exact fun h => h.congr hp rfl rfl rfl rfl

/-- Settles O8: every effect keeps the group table's invariant. -/
theorem stepKeepsTheGroupTable : Obligations.StepKeepsTheGroupTable := fun _ _ hs ht =>
  step_keeps (P := GroupInv) (fun _ _ _ => .empty rfl) (fun _ _ h => h.congr rfl rfl rfl rfl rfl)
    (fun _ _ h => h.congr rfl rfl rfl rfl rfl) (fun _ _ effect => effect.groupInv) hs ht

end Sys2Proof.Machine
end

section
/-! PROOF. The period tracker (R82, R86, R90, R94): every step keeps its invariant. -/

namespace Sys2Proof.Machine

theorem TrackerInv.takeArrival {s : State} (h : TrackerInv s) (run : s.inRun = true) (lane : Lane) (t : Time) :
    TrackerInv (s.takeArrival lane t) :=
  h.anchored run (by simp) (by simp) (s.takeArrival_anchored lane t)

theorem TrackerInv.expireGroup {s : State} (h : TrackerInv s) (run : s.inRun = true) (rank : Nat) (g : OpenGroup) :
    TrackerInv (s.expireGroup rank g) :=
  h.anchored run (by simp) (by simp) (s.expireGroup_anchored rank g)

theorem TrackerInv.closeComplete {s : State} (h : TrackerInv s) (run : s.inRun = true) : TrackerInv s.closeComplete :=
  h.anchored run (by simp) (by simp) s.closeComplete_anchored

theorem TrackerInv.act {s : State} (h : TrackerInv s) (e : TickEvent) : TrackerInv (s.act e) :=
  State.act_keeps (fun _ _ _ h => h.congr rfl rfl rfl) (fun _ lane t run h => h.takeArrival run lane t)
    (fun _ rank g run h => h.expireGroup run rank g) h e

theorem TrackerInv.actWithAcks {s : State} (h : TrackerInv s) (place : AckPlace) : TrackerInv (s.actWithAcks place) :=
  State.actWithAcks_keeps (fun _ _ _ h => h.congr rfl rfl rfl) (fun _ _ hc h => h.congr hc rfl rfl) (fun _ e h => h.act e) h place

theorem State.stallDue_inRun {s : State} (due : s.stallDue = true) : s.inRun = true := by
  simp only [State.stallDue, Bool.and_eq_true] at due
  exact due.1.1

theorem TrackerInv.expireStall {s : State} (h : TrackerInv s) (run : s.inRun = true) : TrackerInv s.expireStall := by
  rw [State.expireStall_eq]
  exact TrackerHeld.trackerInv .stall run (h.limits run)

/-- R158: the six checks pass. -/
theorem State.startError_eq_zero_iff (s : State) :
    s.startError = 0 ↔ s.someLaneEnabled = true ∧ s.table.window ≠ 0 ∧ s.limits.inRange = true ∧
      timeoutInRange s.limits.timeout s.table.window (settleAllowance s.laneConfig) = true ∧
      s.healthConfig.suspect ≤ s.healthConfig.exclude ∧ s.vote.tolerance ≤ s.table.window := by
  unfold State.startError
  split_ifs <;> simp_all

theorem TrackerInv.startRun {s : State} (checks : s.startError = 0) : TrackerInv s.startRun := by
  obtain ⟨-, -, limits, -⟩ := s.startError_eq_zero_iff.mp checks
  rw [State.startRun_eq]
  exact TrackerHeld.trackerInv (.cleared _ _ _) rfl limits

theorem State.stopRun_tracker (s : State) : s.stopRun.tracker = .cleared s.stopGroups.tracker.anchorCount 0 := by
  obtain ⟨u, rfl, h⟩ := s.stopRun_shape
  rw [h]

theorem TrackerInv.takeLimits {s : State} (h : TrackerInv s) (run : s.inRun = true) {l : Limits} (range : l.inRange = true) :
    TrackerInv (s.takeLimits l) :=
  TrackerHeld.trackerInv (s := s.takeLimits l) (h.trackerHeld.reclamp (Limits.inRange_le range).le) run range

/-- A timeout is no bound of the period. -/
theorem TrackerInv.setTimeout {s : State} (h : TrackerInv s) (v : Time) : TrackerInv (s.setLimits { s.limits with timeout := v }) :=
  ⟨h.config, h.stalled, h.held, h.period, h.origin, h.limits⟩

/-- R93: in CONFIG no period is held for the limits to bound. -/
theorem TrackerInv.setLimits_of_config {s : State} (h : TrackerInv s) (config : s.inRun = false) (l : Limits) :
    TrackerInv (s.setLimits l) := by
  refine ⟨h.config, h.stalled, h.held, fun p hp => ?_, h.origin, fun run => ?_⟩
  · have absent : s.tracker.refPeriod = none := h.held (h.config config).1
    cases absent.symm.trans hp
  · cases config.symm.trans run

theorem TrackerInv.writePair {s : State} (h : TrackerInv s) (pair : WritablePair) (v : Time) : TrackerInv (s.writePair pair v) := by
  obtain ⟨config, l, hw⟩ | ⟨run, hw | ⟨l, -, range, hw⟩ | ⟨u, rfl, -, hw | hw⟩⟩ := s.writePair_cases pair v
  · rw [hw]
    exact h.setLimits_of_config config l
  · rw [hw]
    exact h.congr rfl rfl rfl
  · rw [hw]
    exact h.takeLimits run (range (h.limits run))
  · rw [hw]
    exact h.setTimeout v
  · rw [hw]
    exact (h.setTimeout v).expireStall run

theorem Effect.trackerInv {s t : State} (h : Effect s t) : TrackerInv s → TrackerInv t := by
  induction h with
  | refl => exact id
  | trans _ _ first second => exact second ∘ first
  | registers s tb o cmd i st w hp => exact fun h => h.congr hp rfl rfl
  | dueSamples | discard | schedule | writeEntry | flush | acknowledge | configure => exact fun h => h.congr rfl rfl rfl
  | act s e => exact fun h => h.act e
  | actWithAcks s place => exact fun h => h.actWithAcks place
  | stall s due => exact fun h => h.expireStall (State.stallDue_inRun due)
  | armedExpiry s x rest =>
    rw [State.expireArmed_eq]
    exact fun h => h.congr rfl rfl rfl
  | start s config checks => exact fun _ => .startRun checks
  | stop s => exact fun _ => .atRest s.stopRun_inRun s.stopRun_tracker
  | softReset s =>
    rw [State.softReset_eq]
    exact fun _ => .atRest rfl rfl
  | enable s lane =>
    rw [State.enableLane_eq]
    exact fun h => h.congr rfl rfl rfl
  | disable s lane run =>
    rw [State.disableLane_eq]
    exact fun h => TrackerInv.closeComplete (h.congr rfl rfl rfl) run
  | readmit s lane =>
    rw [State.commandLane_eq]
    exact fun h => h.congr rfl rfl rfl
  | writePair s pair v => exact fun h => h.writePair pair v

/-- Settles O9: every effect keeps the tracker's invariant. -/
theorem stepKeepsTheTracker : Obligations.StepKeepsTheTracker := fun _ _ hs ht =>
  step_keeps (P := TrackerInv) (fun _ _ _ => .atRest rfl rfl) (fun _ _ h => h.congr rfl rfl rfl)
    (fun _ _ h => h.congr rfl rfl rfl) (fun _ _ effect => effect.trackerInv) hs ht

end Sys2Proof.Machine
end

section
/-! PROOF. The schedule banks and the armed list (R116, R117, R123, R134, R135, R149): every step keeps their invariants. -/

namespace Sys2Proof.Machine

/-- Both invariants, kept together: what an anchor arms comes from the banks. -/
structure PlanInv (s : State) : Prop where
  schedule : ScheduleInv s
  armed : ArmedInv s

theorem PlanInv.banks {s : State} (h : PlanInv s) : BanksInv s.schedule := ⟨h.schedule.size, h.schedule.entries⟩

theorem PlanInv.congr {s t : State} (h : PlanInv s) (partState : t.command.partState = s.command.partState)
    (schedule : t.schedule = s.schedule) (armed : t.armed = s.armed) : PlanInv t :=
  ⟨h.schedule.congr partState (fun _ => by rw [schedule]) (by rw [schedule]), h.armed.congr partState armed⟩

/-- In RUN the part state asks for nothing more than the blocks' own invariants. -/
theorem PlanInv.of_run {s : State} (run : s.inRun = true) (banks : BanksInv s.schedule) (armed : ArmedListInv s.armed) : PlanInv s :=
  ⟨⟨banks.size, banks.entries, fun _ => run⟩,
    ⟨fun config => Bool.noConfusion (config.symm.trans run), armed.atMost, armed.actions⟩⟩

theorem PlanInv.of_config {s : State} (banks : BanksInv s.schedule) (pending : s.schedule.commit ≠ .pending) (armed : s.armed = []) :
    PlanInv s :=
  ⟨⟨banks.size, banks.entries, fun h => absurd h pending⟩, ⟨fun _ => armed, by simp [armed], by simp [armed]⟩⟩

theorem PlanInv.armedList {s : State} (h : PlanInv s) : ArmedListInv s.armed := ⟨h.armed.atMost, h.armed.actions⟩

theorem PlanInv.scheduled {s t : State} (h : PlanInv s) (run : s.inRun = true) (partState : t.command.partState = s.command.partState)
    (k : Scheduled s t) : PlanInv t :=
  .of_run ((State.inRun_congr partState).trans run) (k.noticed.banks h.banks) (k.armed h.armedList h.banks)

theorem PlanInv.closeComplete {s : State} (h : PlanInv s) (run : s.inRun = true) : PlanInv s.closeComplete :=
  h.scheduled run (by simp) s.closeComplete_scheduled

theorem PlanInv.act {s : State} (h : PlanInv s) (e : TickEvent) : PlanInv (s.act e) :=
  State.act_keeps (fun _ _ _ h => h.congr rfl rfl rfl) (fun s lane t run h => h.scheduled run (by simp) (s.takeArrival_scheduled lane t))
    (fun s rank g run h => h.scheduled run (by simp) (s.expireGroup_scheduled rank g)) h e

theorem PlanInv.actWithAcks {s : State} (h : PlanInv s) (place : AckPlace) : PlanInv (s.actWithAcks place) :=
  State.actWithAcks_keeps (fun _ _ _ h => h.congr rfl rfl rfl) (fun _ _ hc h => h.congr hc rfl rfl) (fun _ e h => h.act e) h place

/-! ## The entry window -/

/-- R117, R120: an entry that passes the checks is in range. -/
theorem Staging.toEntry_inRange {g : Staging} {e : Entry} (h : g.toEntry = some e) : e.inRange = true := by
  unfold Staging.toEntry at h
  split at h
  · cases h
  · dsimp only at h
    split at h
    · next range => exact Option.some.inj h ▸ range
    · cases h

theorem Schedule.setEntries_entries (c : Schedule) (bank : Bank) (es : List Entry) (other : Bank) :
    (c.setEntries bank es).entries other = if other = bank then es else c.entries other := by
  cases bank <;> cases other <;> rfl

theorem Schedule.setEntries_commit (c : Schedule) (bank : Bank) (es : List Entry) : (c.setEntries bank es).commit = c.commit := by
  cases bank <;> rfl

theorem BanksInv.report {c : Schedule} (h : BanksInv c) (operation : BitVec 3) (index : BitVec 4) (r : EntryResult) :
    BanksInv (c.report operation index r) := by
  constructor <;> simp only [Schedule.report_entries]
  · exact h.size
  · exact h.entries

theorem BanksInv.setEntry {c : Schedule} (h : BanksInv c) (bank : Bank) (i : Nat) {e : Entry} (range : e.inRange = true) :
    BanksInv (c.setEntries bank ((c.entries bank).set i e)) := by
  constructor <;> intro other <;> rw [Schedule.setEntries_entries] <;> split
  · simpa using h.size bank
  · exact h.size other
  · intro x hx
    obtain hx | rfl := List.mem_or_eq_of_mem_set hx
    · exact h.entries bank x hx
    · exact range
  · exact h.entries other

/-- R120: a WRITE puts nothing but an entry in range into the banks. -/
theorem BanksInv.writeEntry {c : Schedule} (h : BanksInv c) (index : BitVec 4) : BanksInv (c.writeEntry index) := by
  unfold Schedule.writeEntry
  split
  · exact h.report _ _ _
  · split
    · exact h.report _ _ _
    · split
      · exact h.report _ _ _
      · next range => exact (h.setEntry _ _ (Staging.toEntry_inRange range)).report _ _ _

theorem Schedule.writeEntry_commit (c : Schedule) (index : BitVec 4) : (c.writeEntry index).commit = c.commit := by
  unfold Schedule.writeEntry
  split
  · rfl
  · split
    · rfl
    · split
      · rfl
      · exact c.setEntries_commit _ _

/-! ## Every effect -/

theorem BanksInv.of_entries {c c' : Schedule} (h : BanksInv c) (entries : ∀ bank, c'.entries bank = c.entries bank) : BanksInv c' := by
  constructor <;> simp only [entries]
  · exact h.size
  · exact h.entries

/-- The banks alone change, and a commit comes to wait in RUN alone. -/
theorem PlanInv.setSchedule {s : State} (h : PlanInv s) {c : Schedule} (banks : BanksInv c)
    (pending : c.commit = .pending → s.schedule.commit = .pending ∨ s.inRun = true) : PlanInv (s.setSchedule c) :=
  ⟨⟨banks.size, banks.entries, fun hc => (pending hc).elim h.schedule.pending id⟩, h.armed.congr rfl rfl⟩

theorem ArmedListInv.filter {l : List ArmedAction} (h : ArmedListInv l) (keep : ArmedAction → Bool) : ArmedListInv (l.filter keep) :=
  ⟨(List.length_filter_le _ _).trans h.atMost, fun x hx => h.actions x (List.mem_filter.mp hx).1⟩

theorem PlanInv.flush {s : State} (h : PlanInv s) (keep : ArmedAction → Bool) : PlanInv (s.setArmed (s.armed.filter keep)) :=
  ⟨h.schedule.congr rfl (fun _ => rfl) rfl,
    ⟨fun config => by rw [State.setArmed_armed, h.armed.config config, List.filter_nil], (h.armedList.filter keep).atMost,
      (h.armedList.filter keep).actions⟩⟩

theorem PlanInv.expireArmed {s : State} (h : PlanInv s) (run : s.inRun = true) {x : ArmedAction} {rest : List ArmedAction}
    (armed : s.armed = x :: rest) : PlanInv (s.expireArmed x rest) := by
  have list : ArmedListInv (s.expireArmed x rest).armed := by
    rw [State.expireArmed_armed]
    exact (armed ▸ h.armedList).expire _
  rw [State.expireArmed_eq] at list ⊢
  exact .of_run run h.banks list

theorem Schedule.withdraw_entries (c : Schedule) (bank : Bank) : c.withdraw.entries bank = c.entries bank := by
  unfold Schedule.withdraw
  split <;> cases bank <;> rfl

theorem Schedule.withdraw_commit (c : Schedule) : c.withdraw.commit = if c.commit = .pending then .cancelled else c.commit := by
  unfold Schedule.withdraw
  split <;> rfl

theorem PlanInv.stopRun {s : State} (h : PlanInv s) : PlanInv s.stopRun := by
  obtain ⟨u, rfl, hstop⟩ := s.stopRun_shape
  rw [hstop]
  refine .of_config (h.banks.of_entries fun bank => ?_) ?_ rfl
  · exact (Schedule.withdraw_entries _ bank).trans (s.stopGroups_kept.entries bank)
  · rw [Schedule.withdraw_commit]
    split
    · nofun
    · assumption

theorem Schedule.softReset_entries (c : Schedule) (bank : Bank) : c.softReset.entries bank = c.entries bank := by
  cases bank <;> rfl

theorem Effect.planInv {s t : State} (h : Effect s t) : PlanInv s → PlanInv t := by
  induction h with
  | refl => exact id
  | trans _ _ first second => exact second ∘ first
  | registers s tb o cmd i st w hp => exact fun h => h.congr hp rfl rfl
  | dueSamples | discard | acknowledge | configure => exact fun h => h.congr rfl rfl rfl
  | act s e => exact fun h => h.act e
  | actWithAcks s place => exact fun h => h.actWithAcks place
  | stall s =>
    rw [State.expireStall_eq]
    exact fun h => h.congr rfl rfl rfl
  | armedExpiry s x rest run armed => exact fun h => h.expireArmed run armed
  | start s =>
    intro h
    have run := s.startRun_inRun
    rw [State.startRun_eq] at run ⊢
    exact .of_run run h.banks ⟨Nat.zero_le 16, nofun⟩
  | stop s => exact PlanInv.stopRun
  | softReset s =>
    rw [State.softReset_eq]
    exact fun h => .of_config (h.banks.of_entries (Schedule.softReset_entries _)) nofun rfl
  | schedule s c entries pending => exact fun h => h.setSchedule (h.banks.of_entries entries) pending
  | writeEntry s index =>
    exact fun h => h.setSchedule (h.banks.writeEntry index) fun hc => .inl ((s.schedule.writeEntry_commit index).symm.trans hc)
  | flush s keep => exact fun h => h.flush keep
  | enable s lane =>
    rw [State.enableLane_eq]
    exact fun h => h.congr rfl rfl rfl
  | disable s lane run =>
    rw [State.disableLane_eq]
    exact fun h => PlanInv.closeComplete (h.congr rfl rfl rfl) run
  | readmit s lane =>
    rw [State.commandLane_eq]
    exact fun h => h.congr rfl rfl rfl
  | writePair s pair v =>
    have hp := s.writePair_partState pair v
    obtain ⟨_, _, _, _, _, _, h⟩ := s.writePair_shape pair v
    rw [h] at hp ⊢
    exact fun h => h.congr hp rfl rfl

theorem clearedBank_inRange : ∀ e ∈ clearedBank, e.inRange = true := fun _ he =>
  List.eq_of_mem_replicate he ▸ (by decide)

theorem PlanInv.reset (held : Bool) (pins : Lanes Bool) (pending : List Instr) :
    PlanInv (((State.reset.setResetAsserted held).setLanePins pins).setPending pending) := by
  refine .of_config ⟨fun bank => ?_, fun bank => ?_⟩ nofun rfl
  · cases bank <;> rfl
  · cases bank <;> exact clearedBank_inRange

/-- Settles O10: every effect keeps both invariants. -/
theorem stepKeepsTheScheduleAndTheArmedList : Obligations.StepKeepsTheScheduleAndTheArmedList := fun _ _ schedule armed ht =>
  have inv := step_keeps (P := PlanInv) .reset (fun _ _ h => h.congr rfl rfl rfl) (fun _ _ h => h.congr rfl rfl rfl)
    (fun _ _ effect => effect.planInv) ⟨schedule, armed⟩ ht
  ⟨inv.schedule, inv.armed⟩

end Sys2Proof.Machine
end

section
/-! PROOF. The lane front ends (R5, R7, section 1.2): every step keeps their invariant. -/

namespace Sys2Proof.Machine

/-! ## What the invariant needs of a state -/

theorem State.samples_congr {s t : State} (partState : t.command.partState = s.command.partState)
    (waits : ∀ l, (t.health.get l).state.waits = (s.health.get l).state.waits) (l : Lane) : t.samples l = s.samples l := by
  simp only [State.samples, State.inRun_congr partState, waits]

/-- The sampled lanes decide, whatever their states are otherwise. -/
theorem FrontEndInv.of_waits {s t : State} (h : FrontEndInv s) (partState : t.command.partState = s.command.partState)
    (waits : ∀ l, (t.health.get l).state.waits = (s.health.get l).state.waits) (fronts : t.frontEnds = s.frontEnds)
    (lanes : t.laneConfig = s.laneConfig) : FrontEndInv t := by
  constructor <;> simp only [State.samples_congr partState waits, fronts, lanes]
  · exact h.run
  · exact h.stopped

theorem FrontEndInv.assessed {s t : State} (h : FrontEndInv s) {c : HealthConfig} (a : Assessed c s.health t.health)
    (partState : t.command.partState = s.command.partState) (fronts : t.frontEnds = s.frontEnds)
    (lanes : t.laneConfig = s.laneConfig) : FrontEndInv t :=
  h.of_waits partState a.waits fronts lanes

theorem FrontEndInv.takeArrival {s : State} (h : FrontEndInv s) (lane : Lane) (t : Time) : FrontEndInv (s.takeArrival lane t) :=
  h.assessed (s.takeArrival_assessed lane t) (by simp) (by simp) (by simp)

theorem FrontEndInv.expireGroup {s : State} (h : FrontEndInv s) (rank : Nat) (g : OpenGroup) : FrontEndInv (s.expireGroup rank g) :=
  h.assessed (s.expireGroup_assessed rank g) (by simp) (by simp) (by simp)

theorem FrontEndInv.closeComplete {s : State} (h : FrontEndInv s) : FrontEndInv s.closeComplete :=
  h.assessed s.closeComplete_assessed (by simp) (by simp) (by simp)

/-- Where no lane is sampled and every front end is stopped. -/
theorem FrontEndInv.of_stopped {s : State} (stopped : ∀ l, s.frontEnds.get l = .stopped) : FrontEndInv s :=
  ⟨fun l _ hr => (nomatch (congrArg FrontEnd.run (stopped l)).symm.trans hr), fun l _ => stopped l⟩

theorem FrontEndInv.stopped_of_config {s : State} (h : FrontEndInv s) (config : s.inRun = false) (l : Lane) :
    s.frontEnds.get l = .stopped :=
  h.stopped l (by rw [State.samples, config, Bool.false_and])

/-! ## One front end written -/

/-- The front end of a sampled lane is written with a run short of F, or the lane's front end stays stopped. -/
theorem FrontEndInv.updateFrontEnd {s : State} (h : FrontEndInv s) (lane : Lane) (f : FrontEnd → FrontEnd)
    (run : ∀ r, (f (s.frontEnds.get lane)).run = some r → 1 ≤ r.length ∧ r.length < (s.laneConfig.get lane).filter)
    (stopped : s.samples lane = false → f .stopped = .stopped) : FrontEndInv (s.updateFrontEnd lane f) := by
  have samples : ∀ l, (s.updateFrontEnd lane f).samples l = s.samples l := State.samples_congr rfl fun _ => rfl
  constructor <;> intro l
  · intro r
    simp only [State.updateFrontEnd, State.setFrontEnds_frontEnds, State.setFrontEnds_laneConfig, Lanes.get_update]
    split
    · next hl => subst hl; exact run r
    · exact h.run l r
  · rw [samples]
    simp only [State.updateFrontEnd, State.setFrontEnds_frontEnds, Lanes.get_update]
    split
    · next hl => subst hl; exact fun hs => by rw [h.stopped _ hs, stopped hs]
    · exact h.stopped l

/-- R5: the mark of a sample due is on sampled lanes alone. -/
theorem FrontEndInv.dueSamples {s : State} (h : FrontEndInv s) : FrontEndInv (s.setFrontEnds s.dueSamples) := by
  have samples : ∀ l, (s.setFrontEnds s.dueSamples).samples l = s.samples l := State.samples_congr rfl fun _ => rfl
  constructor <;> intro l
  · simpa [State.dueSamples] using h.run l
  · rw [samples]
    intro hs
    simp [State.dueSamples, hs, h.stopped l hs, FrontEnd.stopped]

theorem FrontEndInv.discard {s : State} (h : FrontEndInv s) (lane : Lane) :
    FrontEndInv (s.updateFrontEnd lane fun fe => { fe with lastAccepted := none }) :=
  h.updateFrontEnd lane _ (h.run lane) fun _ => rfl

/-- R8, R9: the filter step leaves a run of 1..F - 1, or none. -/
theorem FrontEnd.filter_run {fe : FrontEnd} {F : Nat} (hF : 1 ≤ F) (h : ∀ r, fe.run = some r → 1 ≤ r.length ∧ r.length < F)
    (now : Time) (sample : Bool) (r : CandidateRun) (hr : (fe.filter F now sample).1.run = some r) : 1 ≤ r.length ∧ r.length < F := by
  have bound : 1 ≤ (fe.lengthen now).length ∧ (fe.lengthen now).length ≤ F := by
    unfold FrontEnd.lengthen
    split
    · exact ⟨Nat.le_refl 1, hF⟩
    · next old hold => exact ⟨Nat.succ_pos _, (h old hold).2⟩
  unfold FrontEnd.filter at hr
  split at hr
  · split at hr
    · next hnone => cases hnone.symm.trans hr
    · cases hr
  · dsimp only at hr
    split at hr
    · cases hr
    · next hshort =>
      cases hr
      omega

theorem FrontEndInv.countLane {s : State} (h : FrontEndInv s) (lane : Lane) (f : LaneCounters → LaneCounters) :
    FrontEndInv (s.countLane lane f) :=
  h.congr (by simp) (by simp) (by simp) (by simp)

theorem FrontEndInv.acceptEdge {s : State} (h : FrontEndInv s) {lane : Lane} (sampled : s.samples lane = true) (t : Time) :
    FrontEndInv (s.acceptEdge lane t) :=
  ((h.updateFrontEnd lane (fun fe => { fe with lastAccepted := some t }) (h.run lane)
    fun stopped => Bool.noConfusion (stopped.symm.trans sampled)).countLane lane _).takeArrival lane t

theorem FrontEndInv.confirmEdge {s : State} (h : FrontEndInv s) {lane : Lane} (sampled : s.samples lane = true) (level : Bool)
    (t : Time) : FrontEndInv (s.confirmEdge lane level t) := by
  unfold State.confirmEdge
  dsimp only
  split
  · split
    · exact h.countLane lane _
    · exact h.acceptEdge sampled t
  · exact h

theorem FrontEndInv.takeSample {s : State} (c : SettingsInv s) (h : FrontEndInv s) {lane : Lane} (sampled : s.samples lane = true)
    (level : Bool) : FrontEndInv (s.takeSample lane level) := by
  have filtered := FrontEnd.filter_run (c.filter lane).1 (h.run lane) s.now level
  unfold State.takeSample
  generalize (s.frontEnds.get lane).filter (s.laneConfig.get lane).filter s.now level = p at filtered
  obtain ⟨fe, outcome⟩ := p
  have taken : FrontEndInv (s.updateFrontEnd lane fun _ => { fe with sampleDue := false }) :=
    h.updateFrontEnd lane _ filtered fun stopped => Bool.noConfusion (stopped.symm.trans sampled)
  cases outcome with
  | quiet => exact taken
  | glitch => exact taken.countLane lane _
  | confirmed stamp => exact taken.confirmEdge sampled level stamp

/-! ## Every effect -/

/-- The settings and the front ends, kept together: F bounds the runs. -/
structure InputsInv (s : State) : Prop where
  settings : SettingsInv s
  fronts : FrontEndInv s

theorem InputsInv.act {s : State} (h : InputsInv s) (e : TickEvent) : InputsInv (s.act e) := by
  refine ⟨h.settings.act e, ?_⟩
  cases e with
  | sample lane level =>
    simp only [State.act, State.sampleLane]
    split
    · next pending => exact h.fronts.takeSample h.settings (Bool.and_eq_true_iff.mp pending).1 level
    · exact h.fronts
  | arrival lane stamp =>
    simp only [State.act, State.arrive]
    split
    · exact h.fronts.takeArrival lane stamp
    · exact h.fronts
  | groupExpiry rank =>
    simp only [State.act, State.expireRank]
    split
    · split
      · exact h.fronts.expireGroup rank _
      · exact h.fronts
    · exact h.fronts

theorem InputsInv.actWithAcks {s : State} (h : InputsInv s) (place : AckPlace) : InputsInv (s.actWithAcks place) :=
  State.actWithAcks_keeps (fun _ _ hq h => ⟨h.settings.congr rfl rfl rfl rfl rfl hq, h.fronts.congr rfl rfl rfl rfl⟩)
    (fun _ _ hc h => ⟨h.settings.congr rfl rfl rfl rfl rfl rfl, h.fronts.congr hc rfl rfl rfl⟩) (fun _ e h => h.act e) h place

/-- R6, R61: START leaves a lane sampled with a front end just initialised, or OFF with a stopped one. -/
theorem FrontEndInv.startRun (s : State) : FrontEndInv s.startRun := by
  have fronts : ∀ l, s.startRun.frontEnds.get l =
      if (s.laneConfig.get l).enable then .initial (s.lanePins.get l) else .stopped := fun l => by
    rw [State.startRun_eq]; simp [State.startFrontEnds]
  have states : ∀ l, (s.startRun.health.get l).state = startState (s.laneConfig.get l).enable := fun l => by
    rw [State.startRun_eq]; simp [State.startStates, HealthRecord.fresh]
  constructor <;> intro l
  · intro r hr
    rw [fronts] at hr
    split at hr <;> cases hr
  · intro hs
    rw [fronts]
    cases enable : (s.laneConfig.get l).enable with
    | false => rfl
    | true => simp [State.samples, s.startRun_inRun, states, enable, startState, LaneState.waits] at hs

theorem State.stopRun_frontEnds (s : State) : s.stopRun.frontEnds = Lanes.build fun _ => .stopped := by
  obtain ⟨u, -, h⟩ := s.stopRun_shape
  rw [h]

/-- R77 to R79: one lane's enable, front end and health record are written, and its front end is fresh, or stopped where the lane is
not waited for. -/
theorem FrontEndInv.setLane {s : State} (h : FrontEndInv s) (started : s.inRun = true) (lane : Lane) (enable : Bool)
    {fe : FrontEnd} {r : HealthRecord}
    (norun : fe.run = none) (stopped : r.state.waits = false → fe = .stopped) :
    FrontEndInv (((s.setLaneEnable lane enable).updateFrontEnd lane fun _ => fe).setLaneHealth lane r) := by
  constructor <;> intro l
  · intro run hrun
    simp only [State.setLaneHealth, State.updateFrontEnd, State.setLaneEnable, State.setHealth_frontEnds,
      State.setHealth_laneConfig, State.setFrontEnds_frontEnds, State.setFrontEnds_laneConfig, State.setLaneConfig_frontEnds,
      State.setLaneConfig_laneConfig, Lanes.get_update] at hrun ⊢
    split at hrun
    · cases norun.symm.trans hrun
    · next other => rw [if_neg other]; exact h.run l run hrun
  · intro hs
    simp only [State.setLaneHealth, State.updateFrontEnd, State.setLaneEnable, State.samples, State.setHealth_health,
      State.setHealth_frontEnds, State.setFrontEnds_frontEnds, State.setFrontEnds_health, State.setLaneConfig_frontEnds,
      State.setLaneConfig_health, Lanes.get_update, Lanes.get_set] at hs ⊢
    split
    · next hl =>
      rw [if_pos hl] at hs
      change (s.inRun && r.state.waits) = false at hs
      rw [started, Bool.true_and] at hs
      exact stopped hs
    · next other => rw [if_neg other] at hs; exact h.stopped l hs

theorem Effect.inputsInv {s t : State} (h : Effect s t) : InputsInv s → InputsInv t := by
  induction h with
  | refl => exact id
  | trans _ _ first second => exact second ∘ first
  | registers s tb o cmd i st w hp =>
    exact fun h => ⟨h.settings.congr rfl rfl rfl rfl rfl rfl, h.fronts.congr hp rfl rfl rfl⟩
  | schedule | writeEntry | flush | acknowledge =>
    exact fun h => ⟨h.settings.congr rfl rfl rfl rfl rfl rfl, h.fronts.congr rfl rfl rfl rfl⟩
  | dueSamples s => exact fun h => ⟨h.settings.congr rfl rfl rfl rfl rfl rfl, h.fronts.dueSamples⟩
  | discard s lane => exact fun h => ⟨h.settings.congr rfl rfl rfl rfl rfl rfl, h.fronts.discard lane⟩
  | act s e => exact fun h => h.act e
  | actWithAcks s place => exact fun h => h.actWithAcks place
  | stall s due =>
    refine fun h => ⟨(Effect.stall s due).settingsInv h.settings, ?_⟩
    rw [State.expireStall_eq]
    exact h.fronts.congr rfl rfl rfl rfl
  | armedExpiry s x rest run armed =>
    refine fun h => ⟨(Effect.armedExpiry s x rest run armed).settingsInv h.settings, ?_⟩
    rw [State.expireArmed_eq]
    exact h.fronts.congr rfl rfl rfl rfl
  | start s config checks => exact fun h => ⟨(Effect.start s config checks).settingsInv h.settings, .startRun s⟩
  | stop s run =>
    exact fun h => ⟨(Effect.stop s run).settingsInv h.settings, .of_stopped fun l => by rw [s.stopRun_frontEnds, Lanes.get_build]⟩
  | softReset s =>
    refine fun h => ⟨(Effect.softReset s).settingsInv h.settings, ?_⟩
    rw [State.softReset_eq]
    exact .of_stopped fun l => Lanes.get_build _ l
  | configure s _ _ _ _ _ config range => exact fun h => ⟨range h.settings, .of_stopped (h.fronts.stopped_of_config config)⟩
  | enable s lane run off =>
    refine fun h => ⟨(Effect.enable s lane run off).settingsInv h.settings, ?_⟩
    rw [State.enableLane_eq]
    exact (h.fronts.setLane run lane true (r := .fresh .probation) rfl nofun).congr rfl rfl rfl rfl
  | disable s lane run may =>
    refine fun h => ⟨(Effect.disable s lane run may).settingsInv h.settings, ?_⟩
    rw [State.disableLane_eq]
    exact FrontEndInv.closeComplete
      ((h.fronts.setLane run lane false (r := .fresh .off) rfl fun _ => rfl).congr rfl rfl rfl rfl)
  | readmit s lane run excluded =>
    refine fun h => ⟨(Effect.readmit s lane run excluded).settingsInv h.settings, ?_⟩
    rw [State.commandLane_eq]
    refine h.fronts.of_waits rfl (fun l => ?_) rfl rfl
    dsimp only
    rw [Lanes.get_set]
    split
    · next hl => rw [hl, excluded]; rfl
    · rfl
  | writePair s pair v =>
    refine fun h => ⟨(Effect.writePair s pair v).settingsInv h.settings, ?_⟩
    have hp := s.writePair_partState pair v
    obtain ⟨_, _, _, _, _, _, hw⟩ := s.writePair_shape pair v
    rw [hw] at hp ⊢
    exact h.fronts.congr hp rfl rfl rfl

theorem InputsInv.reset (held : Bool) (pins : Lanes Bool) (pending : List Instr) :
    InputsInv (((State.reset.setResetAsserted held).setLanePins pins).setPending pending) :=
  ⟨.reset held pins pending, .of_stopped fun l => by cases l <;> rfl⟩

/-- Settles O11: the settings bound the runs, and every effect keeps both. -/
theorem stepKeepsTheFrontEnds : Obligations.StepKeepsTheFrontEnds := fun _ _ settings fronts ht =>
  (step_keeps (P := InputsInv) .reset
    (fun _ _ h => ⟨h.settings.congr rfl rfl rfl rfl rfl rfl, h.fronts.congr rfl rfl rfl rfl⟩)
    (fun _ _ h => ⟨h.settings.congr rfl rfl rfl rfl rfl rfl, h.fronts.congr rfl rfl rfl rfl⟩)
    (fun _ _ effect => effect.inputsInv) ⟨settings, fronts⟩ ht).fronts

end Sys2Proof.Machine
end

section
/-! PROOF. What START checked (R158) holds in RUN after every step, and a lane is enabled there exactly when it is not OFF (R61, R77,
R78); while RESET is asserted every block keeps its hard-reset values (R168). -/

namespace Sys2Proof.Machine

/-! ## The settings in RUN -/

theorem RunInv.of_config {s : State} (config : s.inRun = false) : RunInv s := by
  constructor <;> exact fun run => Bool.noConfusion (config.symm.trans run)

/-- The settings, the health monitor and what START checked, kept together. -/
structure RunningInv (s : State) : Prop where
  monitor : MonitorInv s
  run : RunInv s

theorem RunInv.kept {s t : State} (h : RunInv s) (k : Kept s t) (partState : t.command.partState = s.command.partState)
    (lanes : t.laneConfig = s.laneConfig) (limits : t.limits = s.limits) (vote : t.vote = s.vote)
    (config : t.healthConfig = s.healthConfig) (off : ∀ l, (t.health.get l).state = .off ↔ (s.health.get l).state = .off) :
    RunInv t :=
  h.congr partState lanes k.settle k.window limits vote config off

/-- R66: an assessment makes no lane OFF and takes none out of it. -/
theorem MonitorInv.off_iff {s : State} (h : MonitorInv s) (run : s.inRun = true) {hs : Lanes HealthRecord}
    (a : Assessed s.healthConfig s.health hs) (l : Lane) : (hs.get l).state = .off ↔ (s.health.get l).state = .off :=
  a.off h.settings.healthConfigInv (h.health.healthRunInv run) l

theorem RunningInv.takeArrival {s : State} (h : RunningInv s) (run : s.inRun = true) (lane : Lane) (t : Time) :
    RunningInv (s.takeArrival lane t) :=
  ⟨⟨h.monitor.settings.takeArrival lane t, h.monitor.health.takeArrival h.monitor.settings run lane t⟩,
    h.run.kept (s.takeArrival_kept lane t) (by simp) (by simp) (by simp) (by simp) (by simp)
      (h.monitor.off_iff run (s.takeArrival_assessed lane t))⟩

theorem RunningInv.expireGroup {s : State} (h : RunningInv s) (run : s.inRun = true) (rank : Nat) (g : OpenGroup) :
    RunningInv (s.expireGroup rank g) :=
  ⟨⟨h.monitor.settings.expireGroup rank g, h.monitor.health.expireGroup h.monitor.settings run rank g⟩,
    h.run.kept (s.expireGroup_kept rank g) (by simp) (by simp) (by simp) (by simp) (by simp)
      (h.monitor.off_iff run (s.expireGroup_assessed rank g))⟩

theorem RunInv.closeComplete {s : State} (h : RunInv s) (m : MonitorInv s) (run : s.inRun = true) : RunInv s.closeComplete :=
  h.kept s.closeComplete_kept (by simp) (by simp) (by simp) (by simp) (by simp) (m.off_iff run s.closeComplete_assessed)

theorem RunningInv.act {s : State} (h : RunningInv s) (e : TickEvent) : RunningInv (s.act e) :=
  State.act_keeps
    (fun _ _ _ h => ⟨h.monitor.congr (h.monitor.settings.congr rfl rfl rfl rfl rfl rfl) rfl rfl rfl,
      h.run.congr rfl rfl rfl rfl rfl rfl rfl fun _ => .rfl⟩)
    (fun _ lane t run h => h.takeArrival run lane t) (fun _ rank g run h => h.expireGroup run rank g) h e

theorem RunningInv.actWithAcks {s : State} (h : RunningInv s) (place : AckPlace) : RunningInv (s.actWithAcks place) :=
  State.actWithAcks_keeps
    (fun _ _ hq h => ⟨h.monitor.congr (h.monitor.settings.congr rfl rfl rfl rfl rfl hq) rfl rfl rfl,
      h.run.congr rfl rfl rfl rfl rfl rfl rfl fun _ => .rfl⟩)
    (fun _ _ hc h => ⟨h.monitor.congr (h.monitor.settings.congr rfl rfl rfl rfl rfl rfl) hc rfl rfl,
      h.run.congr hc rfl rfl rfl rfl rfl rfl fun _ => .rfl⟩)
    (fun _ e h => h.act e) h place

theorem startState_off_iff (enable : Bool) : enable = true ↔ startState enable ≠ .off := by
  cases enable <;> simp [startState]

/-- R158: the checks of START hold of the run it sets up. -/
theorem RunInv.startRun {s : State} (checks : s.startError = 0) : RunInv s.startRun := by
  obtain ⟨some, window, limits, timeout, levels, tolerance⟩ := s.startError_eq_zero_iff.mp checks
  rw [State.startRun_eq]
  refine ⟨fun _ => some, fun _ => Nat.pos_of_ne_zero window, fun _ => limits, fun _ => timeout, fun _ => levels, fun _ => tolerance,
    fun _ => rfl, fun _ l => ?_⟩
  simpa [State.startStates, HealthRecord.fresh] using startState_off_iff (s.laneConfig.get l).enable

/-! ## Lane commands -/

theorem State.setLaneEnable_get (s : State) (lane : Lane) (enable : Bool) (l : Lane) : (s.setLaneEnable lane enable).laneConfig.get l =
    { s.laneConfig.get l with enable := if l = lane then enable else (s.laneConfig.get l).enable } := by
  simp only [State.setLaneEnable, State.setLaneConfig_laneConfig, Lanes.get_update]
  split
  · next h => rw [h]
  · rfl

/-- R19: D looks at no enable. -/
theorem settleAllowance_setLaneEnable (s : State) (lane : Lane) (enable : Bool) :
    settleAllowance (s.setLaneEnable lane enable).laneConfig = settleAllowance s.laneConfig := by
  cases lane <;> rfl

/-- R77, R78: one lane's enable and health record are written alike, and the other settings stay. -/
theorem RunInv.setLane {s : State} (h : RunInv s) (started : s.inRun = true) (lane : Lane) (enable : Bool) {r : HealthRecord}
    (alike : enable = true ↔ r.state ≠ .off) (health : HealthInv (s.setLaneHealth lane r)) :
    RunInv ((s.setLaneEnable lane enable).setLaneHealth lane r) := by
  have enables : ∀ l, (((s.setLaneEnable lane enable).setLaneHealth lane r).laneConfig.get l).enable = true ↔
      (((s.setLaneEnable lane enable).setLaneHealth lane r).health.get l).state ≠ .off := fun l => by
    have old := h.enables started l
    simp only [State.setLaneHealth, State.setHealth_laneConfig, State.setLaneEnable_get, State.setHealth_health, Lanes.get_set]
    split
    · exact alike
    · exact old
  have monitor : HealthInv ((s.setLaneEnable lane enable).setLaneHealth lane r) := health.congr rfl rfl rfl
  exact ⟨fun _ => monitor.someLaneEnabled started enables, h.window, h.limits, h.timeout, h.levels, h.tolerance,
    fun _ => (h.settle started).trans (settleAllowance_setLaneEnable s lane enable).symm, fun _ => enables⟩

/-- R79: a lane that was not OFF is not OFF. -/
theorem RunInv.commandLane {s : State} (h : RunInv s) {lane : Lane} {new : LaneState} (cause : LaneCause)
    (old : (s.health.get lane).state ≠ .off) (hnew : new ≠ .off) : RunInv (s.commandLane lane new cause) := by
  rw [State.commandLane_eq]
  refine h.congr rfl rfl rfl rfl rfl rfl rfl fun l => ?_
  dsimp only
  rw [Lanes.get_set]
  split
  · next hl => rw [hl]; simp [HealthRecord.fresh, hnew, old]
  · exact .rfl

/-! ## Completed pair writes -/

theorem RunInv.writePair {s : State} (h : RunInv s) (pair : WritablePair) (v : Time) : RunInv (s.writePair pair v) := by
  obtain ⟨config, l, hw⟩ | ⟨run, hw | ⟨l, timeout, range, hw⟩ | ⟨u, rfl, range, hw⟩⟩ := s.writePair_cases pair v
  · rw [hw]
    exact .of_config config
  · rw [hw]
    exact h.congr rfl rfl rfl rfl rfl rfl rfl fun _ => .rfl
  · rw [hw]
    exact ⟨h.someLane, h.window, fun r => range (h.limits r), fun r => timeout ▸ h.timeout r, h.levels, h.tolerance, h.settle,
      h.enables⟩
  · have set : RunInv (s.setLimits { s.limits with timeout := v }) :=
      ⟨h.someLane, h.window, h.limits, fun _ => range, h.levels, h.tolerance, h.settle, h.enables⟩
    obtain hw | hw := hw
    · rw [hw]
      exact set
    · rw [hw, State.expireStall_eq]
      exact set.congr rfl rfl rfl rfl rfl rfl rfl fun _ => .rfl

/-! ## Every effect -/

theorem Effect.runningInv {s t : State} (h : Effect s t) : RunningInv s → RunningInv t := by
  induction h with
  | refl => exact id
  | trans _ _ first second => exact second ∘ first
  | registers s tb o cmd i st w hp =>
    exact fun h => ⟨(Effect.registers s tb o cmd i st w hp).healthInv h.monitor, h.run.congr hp rfl rfl rfl rfl rfl rfl fun _ => .rfl⟩
  | dueSamples | discard | schedule | writeEntry | flush | acknowledge =>
    exact fun h => ⟨h.monitor.congr (h.monitor.settings.congr rfl rfl rfl rfl rfl rfl) rfl rfl rfl,
      h.run.congr rfl rfl rfl rfl rfl rfl rfl fun _ => .rfl⟩
  | act s e => exact fun h => h.act e
  | actWithAcks s place => exact fun h => h.actWithAcks place
  | stall s due =>
    refine fun h => ⟨(Effect.stall s due).healthInv h.monitor, ?_⟩
    rw [State.expireStall_eq]
    exact h.run.congr rfl rfl rfl rfl rfl rfl rfl fun _ => .rfl
  | armedExpiry s x rest run armed =>
    refine fun h => ⟨(Effect.armedExpiry s x rest run armed).healthInv h.monitor, ?_⟩
    rw [State.expireArmed_eq]
    exact h.run.congr rfl rfl rfl rfl rfl rfl rfl fun _ => .rfl
  | start s config checks => exact fun h => ⟨(Effect.start s config checks).healthInv h.monitor, .startRun checks⟩
  | stop s run => exact fun h => ⟨(Effect.stop s run).healthInv h.monitor, .of_config s.stopRun_inRun⟩
  | softReset s =>
    refine fun h => ⟨(Effect.softReset s).healthInv h.monitor, ?_⟩
    rw [State.softReset_eq]
    exact .of_config rfl
  | configure s lanes window vote health threshold config range =>
    exact fun h => ⟨(Effect.configure s lanes window vote health threshold config range).healthInv h.monitor, .of_config config⟩
  | enable s lane run off =>
    refine fun h => ⟨(Effect.enable s lane run off).healthInv h.monitor, ?_⟩
    have other := h.monitor.health.voterElsewhere run (lane := lane) (by rw [off]; rfl)
    have health := h.monitor.health.setFresh h.monitor.settings run (st := .probation) nofun rfl nofun other
    rw [State.enableLane_eq]
    exact (h.run.setLane run lane true (by decide) health).congr rfl rfl rfl rfl rfl rfl rfl fun _ => .rfl
  | disable s lane run may =>
    refine fun h => ⟨(Effect.disable s lane run may).healthInv h.monitor, ?_⟩
    have other := h.monitor.health.otherVoter_of_mayDisable run may
    have health := h.monitor.health.setFresh h.monitor.settings run (st := .off) nofun rfl nofun other
    rw [State.disableLane_eq]
    refine RunInv.closeComplete ?_ ⟨?_, health.congr rfl rfl rfl⟩ run
    · exact (h.run.setLane run lane false (by decide) health).congr rfl rfl rfl rfl rfl rfl rfl
        fun _ => .rfl
    · exact (h.monitor.settings.setLaneEnable lane false).congr rfl rfl rfl rfl rfl (EventQueue.offer_threshold _ _)
  | readmit s lane run excluded =>
    exact fun h => ⟨(Effect.readmit s lane run excluded).healthInv h.monitor,
      h.run.commandLane .readmit (by rw [excluded]; decide) (by decide)⟩
  | writePair s pair v => exact fun h => ⟨(Effect.writePair s pair v).healthInv h.monitor, h.run.writePair pair v⟩

theorem RunningInv.reset (held : Bool) (pins : Lanes Bool) (pending : List Instr) :
    RunningInv (((State.reset.setResetAsserted held).setLanePins pins).setPending pending) :=
  ⟨.reset held pins pending, .of_config rfl⟩

theorem RunningInv.step {s t : State} (h : RunningInv s) (ht : step s = .next t) : RunningInv t :=
  step_keeps .reset
    (fun _ _ h => ⟨h.monitor.congr (h.monitor.settings.congr rfl rfl rfl rfl rfl rfl) rfl rfl rfl,
      h.run.congr rfl rfl rfl rfl rfl rfl rfl fun _ => .rfl⟩)
    (fun _ _ h => ⟨h.monitor.congr (h.monitor.settings.congr rfl rfl rfl rfl rfl rfl) rfl rfl rfl,
      h.run.congr rfl rfl rfl rfl rfl rfl rfl fun _ => .rfl⟩)
    (fun _ _ effect => effect.runningInv) h ht

/-! ## RESET asserted -/

theorem State.act_resetAsserted (s : State) (e : TickEvent) : (s.act e).resetAsserted = s.resetAsserted := by
  obtain h | ⟨-, ⟨fs, st, h⟩ | ⟨fs, st, lane, stamp, h⟩ | ⟨rank, g, h⟩⟩ := s.act_cases e <;> simp [h]

theorem State.act_pending (s : State) (e : TickEvent) : (s.act e).pending = s.pending := by
  obtain h | ⟨-, ⟨fs, st, h⟩ | ⟨fs, st, lane, stamp, h⟩ | ⟨rank, g, h⟩⟩ := s.act_cases e <;> simp [h]

/-- RESET and the waiting commands are outside every effect. -/
theorem Effect.resetAsserted_pending {s t : State} (h : Effect s t) :
    t.resetAsserted = s.resetAsserted ∧ t.pending = s.pending := by
  induction h with
  | trans _ _ first second => exact ⟨second.1.trans first.1, second.2.trans first.2⟩
  | act s e => exact ⟨s.act_resetAsserted e, s.act_pending e⟩
  | actWithAcks s place => exact ⟨(s.awaitAcks _).act_resetAsserted _, (s.awaitAcks _).act_pending _⟩
  | stall | armedExpiry | start | stop | enable | disable | readmit => simp
  | softReset s => rw [State.softReset_eq]; exact ⟨rfl, rfl⟩
  | writePair s pair v =>
    obtain ⟨_, _, _, _, _, _, h⟩ := s.writePair_shape pair v
    rw [h]
    exact ⟨rfl, rfl⟩
  | refl | registers | dueSamples | discard | acknowledge | schedule | writeEntry | flush | configure => exact ⟨rfl, rfl⟩

/-- R168: while RESET is asserted a command but HARD_RESET answers what its pins show. -/
theorem exec_held {s : State} (held : s.resetAsserted = true) {c : Instr} (hc : ∀ held, c ≠ .hardReset held) :
    exec c s = .next (s.shown c) := by
  obtain ⟨t, ht, -⟩ := exec_accepts c hc s
  obtain ⟨pins, hpins⟩ := s.shown_eq c
  rw [ht]
  exact State.accept_held (by rw [hpins]; exact held) t

/-- With RESET released it stays so. -/
theorem exec_released {s t : State} (released : s.resetAsserted = false) {c : Instr} (hc : ∀ held, c ≠ .hardReset held)
    (ht : exec c s = .next t) : t.resetAsserted = false := by
  obtain ⟨pins, hpins⟩ := s.shown_eq c
  have effect := (exec_accepts c hc s).next ht
  rw [hpins] at effect
  exact effect.resetAsserted_pending.1.trans released

theorem HeldInv.of_released {s : State} (released : s.resetAsserted = false) : HeldInv s :=
  fun held => Bool.noConfusion (released.symm.trans held)

theorem HeldInv.setLanePins {s : State} (h : HeldInv s) (pins : Lanes Bool) : HeldInv (s.setLanePins pins) := by
  intro held
  exact congrArg (State.setLanePins · pins) (h held)

theorem HeldInv.exec {s t : State} (h : HeldInv s) {c : Instr} (ht : exec c s = .next t) : HeldInv t := by
  by_cases hc : ∃ held, c = .hardReset held
  · obtain ⟨held, rfl⟩ := hc
    rw [exec_hardReset_eq] at ht
    cases ht
    intro (hheld : held = true)
    subst hheld
    rfl
  · have hc : ∀ held, c ≠ .hardReset held := fun held h => hc ⟨held, h⟩
    cases reset : s.resetAsserted with
    | false => exact .of_released (exec_released reset hc ht)
    | true =>
      obtain ⟨pins, hpins⟩ := s.shown_eq c
      rw [exec_held reset hc, hpins] at ht
      cases ht
      exact h.setLanePins pins

theorem HeldInv.step {s t : State} (h : HeldInv s) (ht : step s = .next t) : HeldInv t := by
  unfold Machine.step at ht
  split at ht
  · cases ht
    exact h
  · next rest _ => exact HeldInv.exec (s := s.setPending rest) (fun held => congrArg (State.setPending · rest) (h held)) ht

/-- Settles O12: the settings and the checks of START are kept beside the health monitor's invariant, and RESET holds what it has
reset. -/
theorem stepKeepsTheSettings : Obligations.StepKeepsTheSettings :=
  ⟨fun _ _ settings health run ht =>
    have inv := RunningInv.step ⟨⟨settings, health⟩, run⟩ ht
    ⟨inv.monitor.settings, inv.run⟩,
   fun _ _ h ht => h.step ht⟩

end Sys2Proof.Machine
end

section
/-! PROOF. One step, and the reset (sections 2.3 and 9.6). -/

namespace Sys2Proof.Machine

/-- Settles O1, by the two branches of a step. -/
theorem stepTakesTheFrontCommand : Obligations.StepTakesTheFrontCommand := by
  refine ⟨fun c rest s pending => ?_, fun s pending => ?_⟩
  · simp only [step, pending]
    rfl
  · simp only [step, pending]

/-- Settles O2: every meaning answers a next state, and the waiting commands are kept by HARD_RESET and outside every effect. -/
theorem everyCommandAnswersANextState : Obligations.EveryCommandAnswersANextState := by
  intro c s
  by_cases hc : ∃ held, c = .hardReset held
  · obtain ⟨held, rfl⟩ := hc
    exact ⟨_, exec_hardReset_eq held s, rfl⟩
  · have accepts := exec_accepts c (fun held h => hc ⟨held, h⟩) s
    obtain ⟨t, ht, -⟩ := id accepts
    obtain ⟨pins, hpins⟩ := s.shown_eq c
    refine ⟨_, ht, ?_⟩
    rw [(accepts.next ht).resetAsserted_pending.2, hpins]
    rfl

/-! ## Reset -/

theorem State.shown_eq_self {c : Instr} (sample : ∀ lane level, c ≠ .laneSample lane level)
    (place : ∀ arg place, c ≠ .ackEvent arg (some place)) (s : State) : s.shown c = s := by
  unfold State.shown
  split
  · next lane level => exact absurd rfl (sample lane level)
  · next arg p => exact absurd rfl (place arg p)
  · rfl

/-- Settles O4: HARD_RESET's own meaning, what RESET asserted makes of every other command, and the reset values. -/
theorem hardResetReturnsEveryBlockToReset : Obligations.HardResetReturnsEveryBlockToReset := by
  refine ⟨fun held s => exec_hardReset_eq held s, fun c s held hc => ?held, fun line s held => ?pins, ?values⟩
  case held =>
    obtain ⟨pins, hpins⟩ := s.shown_eq c
    refine ⟨pins, by rw [exec_held held hc, hpins]; rfl, fun sample place => ?_⟩
    have same : s.setLanePins pins = s := hpins.symm.trans (State.shown_eq_self sample place s)
    exact congrArg State.lanePins same
  case pins => rw [State.linePin, held, Bool.not_true, Bool.false_and]
  case values =>
    refine ⟨rfl, rfl, rfl, fun l => ?_, rfl, rfl, rfl, fun bank => ?_, rfl, rfl, rfl, rfl, fun line => ?_, fun line => ?_, rfl, rfl, rfl,
      rfl, rfl, rfl, rfl, rfl, rfl, rfl⟩
    · cases l <;> rfl
    · cases bank <;> rfl
    · cases line <;> rfl
    · cases line <;> rfl

/-- Settles O3: each of the 128 addresses read after reset. -/
theorem hardResetReadsTheMapValues : Obligations.HardResetReadsTheMapValues := by
  unfold Obligations.HardResetReadsTheMapValues
  decide

/-- Settles O5: each block's invariant at its reset values. -/
theorem resetMeetsEveryInvariant : Obligations.ResetMeetsEveryInvariant where
  held := .of_released rfl
  acks := rfl
  settings := (MonitorInv.reset false _ _).settings
  queue := .empty _ _ _ _
  health := (MonitorInv.reset false _ _).health
  groups := .empty rfl
  frontEnds := (InputsInv.reset false _ _).fronts
  tracker := .atRest rfl rfl
  schedule := (PlanInv.reset false _ _).schedule
  armed := (PlanInv.reset false _ _).armed
  run := .of_config rfl

end Sys2Proof.Machine
end

section
/-! PROOF. The timebase and the lane front ends (R2, R5 to R13): a tick, a sample short of a confirmation, a confirmed transition and
the discard of a last accepted edge. -/

namespace Sys2Proof.Machine

/-- R168: with RESET released the answer of a command is the state its meaning gives. -/
theorem exec_next_of_accept {s t : State} {c : Instr} (released : s.resetAsserted = false) (h : exec c s = s.accept t) :
    exec c s = .next t := h.trans (State.accept_released released t)

/-- Settles O13, by the meaning of a tick. -/
theorem timebaseAdvanceCountsOneTick : Obligations.TimebaseAdvanceCountsOneTick := fun _ released =>
  exec_next_of_accept released rfl

/-! ## A sample -/

theorem exec_laneSample_eq (lane : Lane) (level : Bool) (s : State) :
    exec (.laneSample lane level) s = (s.showLevel lane level).accept ((s.showLevel lane level).sampleLane lane level) := by
  rfl

/-- R5: a lane that is not sampled, or has taken its sample, takes none. -/
theorem State.sampleLane_of_not_pending {s : State} {lane : Lane} (h : s.samples lane = false ∨ (s.frontEnds.get lane).sampleDue = false)
    (level : Bool) : s.sampleLane lane level = s := by
  refine if_neg fun pending => ?_
  obtain ⟨sampled, due⟩ := Bool.and_eq_true_iff.mp pending
  obtain h | h := h
  · exact Bool.noConfusion (h.symm.trans sampled)
  · exact Bool.noConfusion (h.symm.trans due)

theorem State.sampleLane_of_pending {s : State} {lane : Lane} (sampled : s.samples lane = true)
    (due : (s.frontEnds.get lane).sampleDue = true) (level : Bool) : s.sampleLane lane level = s.takeSample lane level :=
  if_pos (Bool.and_eq_true_iff.mpr ⟨sampled, due⟩)

/-- R8: a sampled lane takes its sample when one is due. -/
theorem exec_laneSample_of_pending {s : State} (released : s.resetAsserted = false) {lane : Lane} (sampled : s.samples lane = true)
    (due : (s.frontEnds.get lane).sampleDue = true) (level : Bool) :
    exec (.laneSample lane level) s = .next ((s.showLevel lane level).takeSample lane level) := by
  have shown : (s.showLevel lane level).sampleLane lane level = (s.showLevel lane level).takeSample lane level :=
    State.sampleLane_of_pending (s := s.showLevel lane level) sampled due level
  rw [exec_laneSample_eq, State.accept_released (s := s.showLevel lane level) released, shown]

/-! ## The filter -/

/-- R8: a sample at the filtered level with no run. -/
theorem FrontEnd.filter_of_equal {fe : FrontEnd} {sample : Bool} (level : sample = fe.level) (run : fe.run = none) (F : Nat)
    (now : Time) : fe.filter F now sample = (fe, .quiet) := by
  simp [FrontEnd.filter, level, run]

/-- R9: a sample at the filtered level breaks a run. -/
theorem FrontEnd.filter_of_broken {fe : FrontEnd} {sample : Bool} (level : sample = fe.level) {r : CandidateRun} (run : fe.run = some r)
    (F : Nat) (now : Time) : fe.filter F now sample = ({ fe with run := none }, .glitch) := by
  simp [FrontEnd.filter, level, run]

theorem FrontEnd.lengthen_of_none {fe : FrontEnd} (run : fe.run = none) (now : Time) : fe.lengthen now = { length := 1, start := now } := by
  simp [FrontEnd.lengthen, run]

theorem FrontEnd.lengthen_of_some {fe : FrontEnd} {r : CandidateRun} (run : fe.run = some r) (now : Time) :
    fe.lengthen now = { length := r.length + 1, start := r.start } := by
  simp [FrontEnd.lengthen, run]

/-- R8: a differing sample short of F begins a run. -/
theorem FrontEnd.filter_of_begun {fe : FrontEnd} {sample : Bool} (level : sample ≠ fe.level) (run : fe.run = none) {F : Nat}
    (short : F ≠ 1)
    (now : Time) : fe.filter F now sample = ({ fe with run := some { length := 1, start := now } }, .quiet) := by
  simp [FrontEnd.filter, level, FrontEnd.lengthen_of_none run, short.symm]

/-- R8: a differing sample short of F lengthens the run. -/
theorem FrontEnd.filter_of_lengthened {fe : FrontEnd} {sample : Bool} (level : sample ≠ fe.level) {r : CandidateRun}
    (run : fe.run = some r) {F : Nat} (short : r.length + 1 ≠ F) (now : Time) :
    fe.filter F now sample = ({ fe with run := some { length := r.length + 1, start := r.start } }, .quiet) := by
  simp [FrontEnd.filter, level, FrontEnd.lengthen_of_some run, short]

/-- R8: the differing sample that brings the run to F confirms the transition. -/
theorem FrontEnd.filter_of_full {fe : FrontEnd} {sample : Bool} (level : sample ≠ fe.level) {F : Nat} {now : Time}
    (full : (fe.lengthen now).length = F) :
    fe.filter F now sample = ({ fe with level := sample, run := none }, .confirmed (fe.lengthen now).start) := by
  simp [FrontEnd.filter, level, full]

/-! ## A sample, by what the filter passes on -/

section
variable {s : State} {lane : Lane} {level : Bool} {fe : FrontEnd}

theorem State.takeSample_of_quiet
    (h : (s.frontEnds.get lane).filter (s.laneConfig.get lane).filter s.now level = (fe, .quiet)) :
    s.takeSample lane level = s.setFrontEnds (s.frontEnds.set lane { fe with sampleDue := false }) := by
  unfold State.takeSample
  rw [h]
  rfl

theorem State.takeSample_of_glitch
    (h : (s.frontEnds.get lane).filter (s.laneConfig.get lane).filter s.now level = (fe, .glitch)) :
    s.takeSample lane level =
      (s.setFrontEnds (s.frontEnds.set lane { fe with sampleDue := false })).countLane lane
        fun c => { c with glitches := saturatingNext c.glitches } := by
  unfold State.takeSample
  rw [h]
  rfl

theorem State.takeSample_of_confirmed {stamp : Time}
    (h : (s.frontEnds.get lane).filter (s.laneConfig.get lane).filter s.now level = (fe, .confirmed stamp)) :
    s.takeSample lane level =
      (s.setFrontEnds (s.frontEnds.set lane { fe with sampleDue := false })).confirmEdge lane level stamp := by
  unfold State.takeSample
  rw [h]
  rfl

end

/-- Settles O14: the lane ignores its pin, or its filter step gives no transition. -/
theorem sampleShortOfAConfirmation : Obligations.SampleShortOfAConfirmation := by
  refine ⟨fun lane level s ignored => ?ignored, fun lane level s fe released sampled hfe due => ?taken⟩
  case ignored =>
    obtain held | ignored := ignored
    · exact exec_held held nofun
    · have same : (s.showLevel lane level).sampleLane lane level = s.showLevel lane level :=
        State.sampleLane_of_not_pending (s := s.showLevel lane level) ignored level
      rw [exec_laneSample_eq, same]
      unfold State.accept
      rw [ite_self]
      rfl
  case taken =>
    subst hfe
    rw [exec_laneSample_of_pending released sampled due]
    refine ⟨fun equal norun => ?_, fun r equal run => ?_, fun differs norun short => ?_, fun r differs run short => ?_⟩
    · exact congrArg _ (State.takeSample_of_quiet (s := s.showLevel lane level) (FrontEnd.filter_of_equal equal norun _ _))
    · exact congrArg _ (State.takeSample_of_glitch (s := s.showLevel lane level) (FrontEnd.filter_of_broken equal run _ _))
    · exact congrArg _ (State.takeSample_of_quiet (s := s.showLevel lane level) (FrontEnd.filter_of_begun differs norun short _))
    · exact congrArg _ (State.takeSample_of_quiet (s := s.showLevel lane level) (FrontEnd.filter_of_lengthened differs run short _))

/-! ## A confirmed transition -/

/-- R10: the polarity selects the direction. -/
theorem Polarity.selects_iff (p : Polarity) (level : Bool) :
    p.selects level = true ↔ p = .both ∨ p = .rising ∧ level = true ∨ p = .falling ∧ level = false := by
  cases p <;> simp [Polarity.selects]

/-- R11: a candidate edge is blanked within the interval behind a last accepted edge. -/
theorem FrontEnd.blanks_iff (fe : FrontEnd) (blanking : Word) (t : Time) :
    fe.blanks blanking t = true ↔ ∃ last, fe.lastAccepted = some last ∧ (t - last).toNat < blanking.toNat := by
  unfold FrontEnd.blanks elapsed
  cases h : fe.lastAccepted with
  | none => simp
  | some last => simp only [decide_eq_true_iff, Option.some.injEq, exists_eq_left']

/-- R8: what the full run confirms, and when. -/
theorem FrontEnd.filter_of_confirmed {fe : FrontEnd} {sample : Bool} (level : sample ≠ fe.level) {F : Nat} {now stamp : Time}
    (full : (fe.run = none ∧ F = 1 ∧ stamp = now) ∨ ∃ r, fe.run = some r ∧ r.length + 1 = F ∧ stamp = r.start) :
    fe.filter F now sample = ({ fe with level := sample, run := none }, .confirmed stamp) := by
  obtain ⟨run, rfl, rfl⟩ | ⟨r, run, rfl, rfl⟩ := full
  · rw [FrontEnd.filter_of_full level (by rw [FrontEnd.lengthen_of_none run]), FrontEnd.lengthen_of_none run]
  · rw [FrontEnd.filter_of_full level (by rw [FrontEnd.lengthen_of_some run]), FrontEnd.lengthen_of_some run]

section
variable {s : State} {lane : Lane} {level : Bool} {stamp : Time}

theorem State.confirmEdge_of_unselected (h : (s.laneConfig.get lane).polarity.selects level = false) :
    s.confirmEdge lane level stamp = s := by
  simp [State.confirmEdge, h]

theorem State.confirmEdge_of_blanked (h : (s.laneConfig.get lane).polarity.selects level = true)
    (blanked : (s.frontEnds.get lane).blanks (s.laneConfig.get lane).blanking stamp = true) :
    s.confirmEdge lane level stamp = s.countLane lane fun c => { c with blanked := saturatingNext c.blanked } := by
  simp [State.confirmEdge, h, blanked]

theorem State.confirmEdge_of_accepted (h : (s.laneConfig.get lane).polarity.selects level = true)
    (clear : (s.frontEnds.get lane).blanks (s.laneConfig.get lane).blanking stamp = false) :
    s.confirmEdge lane level stamp = s.acceptEdge lane stamp := by
  simp [State.confirmEdge, h, clear]

end

/-- One lane's value written and then changed. -/
theorem Lanes.update_set {α : Type} (v : Lanes α) (l : Lane) (x : α) (f : α → α) : (v.set l x).update l f = v.set l (f x) := by
  rw [Lanes.update, Lanes.get_set_same, Lanes.set_set]

/-- Settles O15: the filter confirms, and then the polarity and the blanking test decide. -/
theorem sampleConfirmsATransition : Obligations.SampleConfirmsATransition := by
  intro lane level stamp s fe p selected released sampled hfe due differs full hp hselected
  subst hfe hp hselected
  obtain ⟨u, hu⟩ : ∃ u, u = State.setFrontEnds (s.showLevel lane level) (s.frontEnds.set lane
    { s.frontEnds.get lane with level := level, run := none, sampleDue := false }) := ⟨_, rfl⟩
  have confirmed : (s.showLevel lane level).takeSample lane level = u.confirmEdge lane level stamp := by
    rw [hu]
    exact State.takeSample_of_confirmed (s := s.showLevel lane level) (FrontEnd.filter_of_confirmed differs full)
  rw [exec_laneSample_of_pending released sampled due, confirmed, ← Polarity.selects_iff]
  have config : u.laneConfig = s.laneConfig := by rw [hu]; rfl
  have blanks : (u.frontEnds.get lane).blanks = (s.frontEnds.get lane).blanks := by
    rw [hu, State.setFrontEnds_frontEnds, Lanes.get_set_same]
    rfl
  refine ⟨fun unselected => ?unselected, fun selects blanked => ?blanked, fun selects clear => ?accepted⟩
  case unselected =>
    rw [State.confirmEdge_of_unselected (by rw [config]; exact Bool.eq_false_iff.mpr unselected), hu]
    rfl
  case blanked =>
    rw [State.confirmEdge_of_blanked (by rw [config]; exact selects)
      (by rw [config, blanks]; exact (FrontEnd.blanks_iff _ _ _).mpr blanked), hu]
    rfl
  case accepted =>
    have clear : (s.frontEnds.get lane).blanks (s.laneConfig.get lane).blanking stamp = false := by
      refine Bool.eq_false_iff.mpr fun blanked => ?_
      obtain ⟨last, hlast, within⟩ := (FrontEnd.blanks_iff _ _ _).mp blanked
      exact Nat.not_lt.mpr (clear last hlast) within
    have accepted : (u.updateFrontEnd lane fun fe => { fe with lastAccepted := some stamp }) =
        State.setFrontEnds (s.showLevel lane level) (s.frontEnds.set lane
          { level := level, run := none, lastAccepted := some stamp, sampleDue := false }) := by
      rw [hu]
      exact congrArg (State.setFrontEnds (s.showLevel lane level)) (Lanes.update_set s.frontEnds lane _ _)
    rw [State.confirmEdge_of_accepted (by rw [config]; exact selects) (by rw [config, blanks]; exact clear)]
    rw [State.acceptEdge, accepted]
    rfl

/-! ## The last accepted edge -/

/-- R12: the tick of the discard. -/
theorem elapsed_eq_lifetime_iff (now p : Time) : elapsed p now = Config.acceptedLifetime ↔ now = p + 65552 := by
  unfold elapsed Config.acceptedLifetime
  bv_omega

theorem exec_lastAcceptedDiscard_eq (lane : Lane) (s : State) : exec (.lastAcceptedDiscard lane) s = execLastAcceptedDiscard lane s := by
  rfl

theorem execLastAcceptedDiscard_of_some {s : State} {lane : Lane} {p : Time} (h : (s.frontEnds.get lane).lastAccepted = some p) :
    execLastAcceptedDiscard lane s = s.accept (if elapsed p s.now = Config.acceptedLifetime then
      s.updateFrontEnd lane fun fe => { fe with lastAccepted := none } else s) := by
  unfold execLastAcceptedDiscard
  rw [h]

theorem execLastAcceptedDiscard_of_none {s : State} {lane : Lane} (h : (s.frontEnds.get lane).lastAccepted = none) :
    execLastAcceptedDiscard lane s = s.accept s := by
  unfold execLastAcceptedDiscard
  rw [h]

/-- Settles O16, by the tick at which the command is given. -/
theorem lastAcceptedEdgeIsDiscarded : Obligations.LastAcceptedEdgeIsDiscarded := by
  intro lane s released
  rw [exec_lastAcceptedDiscard_eq]
  refine ⟨fun p hp due => ?_, fun p hp early => ?_, fun none => ?_⟩
  · rw [execLastAcceptedDiscard_of_some hp, if_pos ((elapsed_eq_lifetime_iff s.now p).mpr due), State.accept_released released]
    rfl
  · rw [execLastAcceptedDiscard_of_some hp, if_neg fun h => early ((elapsed_eq_lifetime_iff s.now p).mp h), State.accept_released released]
  · rw [execLastAcceptedDiscard_of_none none, State.accept_released released]

end Sys2Proof.Machine
end

section
/-! PROOF. The group table (R17 to R40): where an arrival goes, which groups expire, what a close takes, counts and hands on, and what
arrivals and expiries leave unchanged. -/

namespace Sys2Proof.Machine

/-! ## Placing an arrival -/

/-- R18, R22: a candidate lacks the lane and has the stamp within the window. -/
theorem OpenGroup.candidate_iff (w : Nat) (lane : Lane) (t : Time) (g : OpenGroup) :
    g.candidate w lane t = true ↔
      (g.members.get lane).isNone = true ∧ ((t - g.reference).toNat ≤ w ∨ (g.reference - t).toNat ≤ w) := by
  simp only [OpenGroup.candidate, withinWindow, Bool.and_eq_true, Bool.or_eq_true, decide_eq_true_iff]

theorem OpenGroup.not_candidate {w : Nat} {lane : Lane} {t : Time} {g : OpenGroup}
    (h : ¬((g.members.get lane).isNone = true ∧ ((t - g.reference).toNat ≤ w ∨ (g.reference - t).toNat ≤ w))) :
    g.candidate w lane t = false :=
  Bool.eq_false_iff.mpr fun hc => h ((g.candidate_iff w lane t).mp hc)

/-- R5, R13, R22: an arrival is the table's work, on its own too. -/
theorem ArrivalGives.of_takeArrival {lane : Lane} {stamp : Time} {s t : State} (h : s.takeArrival lane stamp = t) :
    ArrivalGives lane stamp s t := by
  refine ⟨h, fun released sampled fresh => ?_⟩
  have taken : s.arrive lane stamp = s.takeArrival lane stamp := if_pos (by simp [sampled, fresh])
  rw [← h, ← taken]
  exact State.accept_released released _

/-- R25: a group is complete when no lane waited for is absent. -/
theorem OpenGroup.complete_iff (states : Lanes LaneState) (g : OpenGroup) :
    g.complete states = true ↔ ∀ l, (states.get l).waits = true → g.members.get l ≠ none := by
  simp only [OpenGroup.complete, Lane.every_iff, Bool.or_eq_true, Bool.not_eq_true', Option.isSome_iff_ne_none]
  exact forall_congr' fun l => by cases (states.get l).waits <;> simp

theorem State.settlePlaced_of_complete {s : State} {g : OpenGroup} (h : g.complete s.laneStates = true) (before after : List OpenGroup) :
    s.settlePlaced before g after = (s.setGroups (before ++ after)).closeGroup .complete g := if_pos h

theorem State.settlePlaced_of_incomplete {s : State} {g : OpenGroup} (h : g.complete s.laneStates = false)
    (before after : List OpenGroup) : s.settlePlaced before g after = s.setGroups (before ++ g :: after) :=
  if_neg (Bool.eq_false_iff.mp h)

/-- R25: a member's own lane is no longer lacking, so the other lanes decide whether its group is complete. -/
theorem OpenGroup.complete_of_member {s : State} {g : OpenGroup} {lane : Lane} (member : g.members.get lane ≠ none)
    (others : ∀ l, (s.health.get l).state.waits = true → l ≠ lane → g.members.get l ≠ none) : g.complete s.laneStates = true := by
  refine (g.complete_iff _).mpr fun l waits => ?_
  rw [State.laneStates_get] at waits
  by_cases h : l = lane
  · exact h ▸ member
  · exact others l waits h

theorem OpenGroup.incomplete_of_absent {s : State} {g : OpenGroup} {l : Lane} (waits : (s.health.get l).state.waits = true)
    (absent : g.members.get l = none) : g.complete s.laneStates = false := by
  refine Bool.eq_false_iff.mpr fun complete => (g.complete_iff _).mp complete l ?_ absent
  rw [State.laneStates_get]
  exact waits

theorem OpenGroup.join_member_other {g : OpenGroup} {lane l : Lane} (h : l ≠ lane) (t : Time) :
    (g.join lane t).members.get l = g.members.get l := Lanes.get_set_other _ _ h

theorem OpenGroup.join_member_same (g : OpenGroup) (lane : Lane) (t : Time) : (g.join lane t).members.get lane = some t :=
  Lanes.get_set_same _ _ _

/-- Settles O17: the search finds the oldest candidate, and the lanes waited for decide whether the join completes it. -/
theorem arrivalJoinsTheOldestCandidate : Obligations.ArrivalJoinsTheOldestCandidate := by
  intro lane stamp s before after g groups older lacks window
  have candidate : g.candidate s.table.window lane stamp = true :=
    (g.candidate_iff _ _ _).mpr ⟨Option.isNone_iff_eq_none.mpr lacks, window⟩
  have placed : s.takeArrival lane stamp = s.settlePlaced before (g.join lane stamp) after := by
    rw [State.takeArrival, groups, splitCandidate_oldest (fun x hx => OpenGroup.not_candidate (older x hx)) candidate]
  refine ⟨fun ⟨l, waits, other, absent⟩ => ?stays, fun others => ?closes⟩
  case stays =>
    have incomplete : (g.join lane stamp).complete s.laneStates = false :=
      OpenGroup.incomplete_of_absent waits ((OpenGroup.join_member_other other stamp).trans absent)
    exact .of_takeArrival (placed.trans (State.settlePlaced_of_incomplete incomplete before after))
  case closes =>
    have complete : (g.join lane stamp).complete s.laneStates = true := by
      refine OpenGroup.complete_of_member (lane := lane) (by simp [OpenGroup.join_member_same]) fun l waits other => ?_
      rw [OpenGroup.join_member_other other]
      exact others l waits other
    exact .of_takeArrival (placed.trans (State.settlePlaced_of_complete complete before after))

/-! ## Opening a group -/

theorem GroupTable.opened_member_same (table : GroupTable) (lane : Lane) (t : Time) :
    (table.opened lane t).members.get lane = some t := Lanes.get_set_same _ _ _

theorem GroupTable.opened_member_other {lane l : Lane} (h : l ≠ lane) (table : GroupTable) (t : Time) :
    (table.opened lane t).members.get l = none := by
  rw [GroupTable.opened, Lanes.get_set_other _ _ h]
  cases l <;> rfl

/-- R25: a group just opened is incomplete while another lane is waited for. -/
theorem GroupTable.opened_incomplete {s : State} (table : GroupTable) {lane : Lane} (t : Time)
    (h : ∃ l, l ≠ lane ∧ (s.health.get l).state.waits = true) : (table.opened lane t).complete s.laneStates = false := by
  obtain ⟨l, other, waits⟩ := h
  exact OpenGroup.incomplete_of_absent waits (table.opened_member_other other t)

theorem GroupTable.opened_complete {s : State} (table : GroupTable) {lane : Lane} (t : Time)
    (h : ∀ l, l ≠ lane → (s.health.get l).state.waits = false) : (table.opened lane t).complete s.laneStates = true :=
  OpenGroup.complete_of_member (lane := lane) (by simp [GroupTable.opened_member_same]) fun l waits other =>
    Bool.noConfusion ((h l other).symm.trans waits)

/-- R24: with fewer than four groups open there is room. -/
theorem State.makeRoom_of_room {s : State} (h : s.table.groups.length < 4) : s.makeRoom = s := by
  unfold State.makeRoom
  split
  · rfl
  · exact if_neg (Nat.not_le.mpr h)

theorem State.makeRoom_of_full {s : State} {oldest : OpenGroup} {rest : List OpenGroup} (groups : s.table.groups = oldest :: rest)
    (full : rest.length = 3) : s.makeRoom = (s.setGroups rest).closeGroup .evicted oldest := by
  have four : Config.maxGroups ≤ s.table.groups.length := by simp [groups, full, Config.maxGroups]
  simp only [State.makeRoom, groups] at four ⊢
  exact if_pos four

/-- R23: an arrival with no candidate, after room has been made. -/
theorem State.takeArrival_of_absent {s : State} {lane : Lane} {stamp : Time}
    (h : ∀ x ∈ s.table.groups, x.candidate s.table.window lane stamp = false) :
    s.takeArrival lane stamp =
      s.makeRoom.settlePlaced s.makeRoom.table.groups (s.makeRoom.table.opened lane stamp) [] := by
  rw [State.takeArrival, splitCandidate_absent h]
  rfl

/-- A group taken out again where it was put in last leaves the table as it was. -/
theorem State.setGroups_self (s : State) : s.setGroups (s.table.groups ++ []) = s := by
  rw [List.append_nil]
  rfl

theorem GroupTable.opened_congr {a b : GroupTable} (window : a.window = b.window) (settle : a.settle = b.settle) (lane : Lane)
    (t : Time) : a.opened lane t = b.opened lane t := by
  simp only [GroupTable.opened, window, settle]

/-- R23 to R25: the group an arrival opens at the last rank stays or closes, by the lanes waited for. -/
theorem State.settlePlaced_opened {u : State} (lane : Lane) (stamp : Time) :
    ((∃ l, l ≠ lane ∧ (u.health.get l).state.waits = true) →
      u.settlePlaced u.table.groups (u.table.opened lane stamp) [] =
        { u with table := { u.table with groups := u.table.groups ++ [u.table.opened lane stamp] } }) ∧
    ((∀ l, l ≠ lane → (u.health.get l).state.waits = false) →
      u.settlePlaced u.table.groups (u.table.opened lane stamp) [] = u.closeGroup .complete (u.table.opened lane stamp)) := by
  refine ⟨fun waited => ?_, fun alone => ?_⟩
  · exact State.settlePlaced_of_incomplete (u.table.opened_incomplete stamp waited) _ _
  · rw [State.settlePlaced_of_complete (u.table.opened_complete stamp alone), State.setGroups_self]

/-- Settles O18: room is made where the table is full, and an eviction changes no lane that is waited for, no window and no D. -/
theorem arrivalWithNoCandidateOpensAGroup : Obligations.ArrivalWithNoCandidateOpensAGroup := by
  intro lane stamp s g absent hg
  subst hg
  have taken := State.takeArrival_of_absent fun x hx => OpenGroup.not_candidate (absent x hx)
  refine ⟨fun room => ?room, fun oldest rest u groups full hu => ?full⟩
  case room =>
    rw [State.makeRoom_of_room room] at taken
    obtain ⟨stays, closes⟩ := State.settlePlaced_opened (u := s) lane stamp
    exact ⟨fun waited => .of_takeArrival (taken.trans (stays waited)), fun alone => .of_takeArrival (taken.trans (closes alone))⟩
  case full =>
    have evicted : s.makeRoom = u := (State.makeRoom_of_full groups full).trans hu.symm
    have opened : u.table.opened lane stamp = s.table.opened lane stamp :=
      GroupTable.opened_congr (evicted ▸ s.makeRoom_table_window) (evicted ▸ s.makeRoom_table_settle) lane stamp
    have left : u.table.groups = rest := by rw [hu, State.closeGroup_table]
    have waits : ∀ l, (u.health.get l).state.waits = (s.health.get l).state.waits := (evicted ▸ s.makeRoom_assessed).waits
    obtain ⟨stays, closes⟩ := State.settlePlaced_opened (u := u) lane stamp
    simp only [waits, opened, left] at stays closes
    rw [evicted, opened, left] at taken
    exact ⟨left, fun waited => .of_takeArrival (taken.trans (stays waited)), fun alone => .of_takeArrival (taken.trans (closes alone))⟩

/-! ## Expiry -/

theorem exec_groupExpiry_eq (rank : Nat) (s : State) : exec (.groupExpiry rank) s = s.accept (s.expireRank rank) := by
  rfl

theorem State.groupOfRank_of_pos {rank : Nat} (h : 1 ≤ rank) (s : State) : s.groupOfRank rank = s.table.groups[rank - 1]? :=
  if_neg (Nat.pos_iff_ne_zero.mp h)

/-- R28: the group of a rank, in RUN and due. -/
theorem State.expireRank_of_some {s : State} {rank : Nat} {g : OpenGroup} (h : s.groupOfRank rank = some g) :
    s.expireRank rank = if s.inRun && g.isDue s.now then s.expireGroup rank g else s := by
  simp only [State.expireRank, h]

theorem State.expireRank_of_none {s : State} {rank : Nat} (h : s.groupOfRank rank = none) : s.expireRank rank = s := by
  simp only [State.expireRank, h]

theorem State.expireRank_of_config {s : State} (h : s.inRun = false) (rank : Nat) : s.expireRank rank = s := by
  unfold State.expireRank
  rw [h]
  split <;> rfl

/-- What is not due changes nothing, RESET asserted or not. -/
theorem State.accept_self (s : State) : s.accept s = .next s := by
  rw [State.accept, ite_self]

/-- Settles O19: the rank names an open group or none, and its deadline decides. -/
theorem groupExpiresAfterItsDeadline : Obligations.GroupExpiresAfterItsDeadline := by
  intro rank s
  rw [exec_groupExpiry_eq]
  refine ⟨fun g released run pos hg due => ?due, fun g pos hg early => ?early, fun config => ?config, fun none => ?none⟩
  case due =>
    rw [State.expireRank_of_some ((State.groupOfRank_of_pos pos s).trans hg), (s.inRun_eq_true_iff).mpr run, OpenGroup.isDue]
    exact (congrArg s.accept (if_pos due)).trans (State.accept_released released _)
  case early =>
    have notDue : g.isDue s.now = false := by rw [OpenGroup.isDue, later]; exact congrArg _ early
    rw [State.expireRank_of_some ((State.groupOfRank_of_pos pos s).trans hg), notDue, Bool.and_false]
    exact s.accept_self
  case config => rw [State.expireRank_of_config ((s.inRun_eq_false_iff).mpr config), State.accept_self]
  case none =>
    have absent : s.groupOfRank rank = Option.none := by
      obtain rfl | beyond := none
      · rfl
      · rw [State.groupOfRank_of_pos (by omega)]
        exact List.getElem?_eq_none (by omega)
    rw [State.expireRank_of_none absent, State.accept_self]

/-! ## What arrivals and expiries leave unchanged -/

/-- R22: an arrival does the table's work, or nothing. -/
theorem State.arrive_cases (s : State) (lane : Lane) (stamp : Time) :
    s.arrive lane stamp = s.takeArrival lane stamp ∨ s.arrive lane stamp = s := by
  unfold State.arrive
  split
  · exact .inl rfl
  · exact .inr rfl

theorem State.expireRank_cases (s : State) (rank : Nat) : (∃ g, s.expireRank rank = s.expireGroup rank g) ∨ s.expireRank rank = s := by
  cases h : s.groupOfRank rank with
  | none => exact .inr (State.expireRank_of_none h)
  | some g =>
    rw [State.expireRank_of_some h]
    split
    · exact .inl ⟨g, rfl⟩
    · exact .inr rfl

/-- What ARRIVAL and GROUP_EXPIRY leave unchanged beside `Kept`. -/
structure Outside (s t : State) : Prop where
  resetAsserted : t.resetAsserted = s.resetAsserted
  timebase : t.timebase = s.timebase
  lanePins : t.lanePins = s.lanePins
  laneConfig : t.laneConfig = s.laneConfig
  frontEnds : t.frontEnds = s.frontEnds
  vote : t.vote = s.vote
  healthConfig : t.healthConfig = s.healthConfig
  limits : t.limits = s.limits
  command : t.command = s.command
  window : t.window = s.window
  pending : t.pending = s.pending

theorem Outside.refl (s : State) : Outside s s := ⟨rfl, rfl, rfl, rfl, rfl, rfl, rfl, rfl, rfl, rfl, rfl⟩

theorem State.takeArrival_outside (s : State) (lane : Lane) (t : Time) : Outside s (s.takeArrival lane t) := by
  constructor <;> simp

theorem State.expireGroup_outside (s : State) (rank : Nat) (g : OpenGroup) : Outside s (s.expireGroup rank g) := by
  constructor <;> simp

/-- What an arrival or an expiry keeps, in the table's blocks and outside them. -/
theorem exec_kept_outside {c : Instr} {s t : State} (hc : (∃ lane stamp, c = .arrival lane stamp) ∨ ∃ rank, c = .groupExpiry rank)
    (ht : exec c s = .next t) : Kept s t ∧ Outside s t := by
  obtain ⟨lane, stamp, rfl⟩ | ⟨rank, rfl⟩ := hc
  · refine State.accept_next (p := fun u => Kept s u ∧ Outside s u) ht ⟨.refl s, .refl s⟩ ?_
    obtain h | h := s.arrive_cases lane stamp <;> rw [h]
    · exact ⟨s.takeArrival_kept lane stamp, s.takeArrival_outside lane stamp⟩
    · exact ⟨.refl s, .refl s⟩
  · refine State.accept_next (p := fun u => Kept s u ∧ Outside s u) ht ⟨.refl s, .refl s⟩ ?_
    obtain ⟨g, h⟩ | h := s.expireRank_cases rank <;> rw [h]
    · exact ⟨s.expireGroup_kept rank g, s.expireGroup_outside rank g⟩
    · exact ⟨.refl s, .refl s⟩

/-- R5, R13: an arrival from a lane that is not sampled, or one delivered already, is none. -/
theorem State.arrive_of_ignored {s : State} {lane : Lane} {stamp : Time}
    (h : s.samples lane = false ∨ (s.frontEnds.get lane).lastAccepted = some stamp) : s.arrive lane stamp = s := by
  refine if_neg fun taken => ?_
  obtain ⟨sampled, fresh⟩ := Bool.and_eq_true_iff.mp taken
  obtain h | h := h
  · exact Bool.noConfusion (h.symm.trans sampled)
  · exact of_decide_eq_true fresh h

/-- Settles O21, from what an arrival and an expiry keep. -/
theorem arrivalAndExpiryFrame : Obligations.ArrivalAndExpiryFrame := by
  refine ⟨fun c s t hc ht => ?_, fun lane stamp s ignored => ?_⟩
  · obtain ⟨k, o⟩ := exec_kept_outside hc ht
    exact ⟨o.resetAsserted, o.timebase, o.lanePins, o.laneConfig, o.frontEnds, k.window, k.settle, o.vote, o.healthConfig, o.limits,
      k.threshold, k.staging, k.latePolicy, k.index, k.operation, k.entryResult, k.entries, k.enable, k.safe, o.command, k.enables,
      k.bank, k.time, k.taken, o.window, o.pending⟩
  · have same : exec (.arrival lane stamp) s = s.accept (s.arrive lane stamp) := rfl
    rw [same, State.arrive_of_ignored ignored, State.accept_self]

end Sys2Proof.Machine
end

section
/-! PROOF. The vote (R41 to R58) and the health monitor (R66 to R75): what a close counts and hands on, the offsets, the class and the
voted offset, the assessments, pass 1, and the reports. -/

namespace Sys2Proof.Machine

/-! ## A close -/

/-- R57: DEVIANT and MISSING are charged. -/
theorem LaneCounters.charge_eq (c : LaneCounters) (a : Assessment) : c.charge a =
    { c with
      deviant := if a = .deviant then saturatingNext c.deviant else c.deviant
      missing := if a = .missing then saturatingNext c.missing else c.missing } := by
  cases a <;> rfl

/-- R39: the counter of the reason. -/
theorem Counters.countClose_eq (c : Counters) (reason : CloseReason) : c.countClose reason =
    { c with
      complete := if reason = .complete then saturatingNext c.complete else c.complete
      expired := if reason = .expired then saturatingNext c.expired else c.expired
      evicted := if reason = .evicted then saturatingNext c.evicted else c.evicted } := by
  cases reason <;> rfl

/-- R56: the counters of the class, but for a STOPPED group. -/
theorem Counters.countClass_eq (c : Counters) (r : VoteResult) : c.countClass r =
    { c with
      unvoted := if r.reason ≠ .stopped ∧ r.voteClass = .unvoted then saturatingNext c.unvoted else c.unvoted
      split := if r.reason ≠ .stopped ∧ r.voteClass = .split then saturatingNext c.split else c.split } := by
  obtain ⟨seq, reason, reference, offsets, voteClass, votedTime, spread, assessments⟩ := r
  cases reason <;> cases voteClass <;> rfl

/-- Settles O20: the ballot's verdict and assessments are the result, and each counter of the close has its own equation. -/
theorem closeNumbersCountsAndHandsOn : Obligations.CloseNumbersCountsAndHandsOn := by
  intro reason g s u b r hr hb hu
  have hreason : r.reason = reason := by
    rw [hr]
    rfl
  have counted : (s.takeNumber reason).countVote r = u := by
    simp only [State.takeNumber, State.countVote, State.count, State.setTable, State.setStats, Counters.countClose_eq,
      Counters.countClass_eq, Counters.charge, LaneCounters.charge_eq, hreason, hu]
  refine ⟨?_, ?_⟩
  · rw [hr, hb]
    rfl
  · rw [← counted, hr]
    rfl

/-! ## Offsets -/

/-- Settles O22: the difference modulo 2^32, read as a signed number, is small on either side. -/
theorem offsetOfAMemberLiesInTheWindow : Obligations.OffsetOfAMemberLiesInTheWindow := by
  intro w r t hw near
  have swapped : (r - t).toNat = (2 ^ 32 - (t - r).toNat) % 2 ^ 32 := by bv_omega
  have signed := BitVec.toInt_eq_toNat_cond (t - r)
  refine ⟨?_, ?_, ?_⟩
  · rw [memberOffset, signed]; split <;> omega
  · rw [memberOffset, signed]; split <;> omega
  · rw [memberOffset, BitVec.ofInt_toInt]; bv_omega

/-! ## The verdict -/

theorem perm_pair {α : Type} {a b x y : α} (h : [a, b].Perm [x, y]) : a = x ∧ b = y ∨ a = y ∧ b = x := by
  obtain rfl | rfl : a = x ∨ a = y := by simpa using h.subset List.mem_cons_self
  · exact .inl ⟨rfl, by simpa using h⟩
  · exact .inr ⟨rfl, by simpa using h.trans (.swap a x [])⟩

/-- A list of three put in order is one of six. -/
theorem perm_triple {α : Type} {a b c x y z : α} (h : [a, b, c].Perm [x, y, z]) :
    (a = x ∧ ([b, c].Perm [y, z])) ∨ (a = y ∧ [b, c].Perm [x, z]) ∨ (a = z ∧ [b, c].Perm [x, y]) := by
  obtain rfl | rfl | rfl : a = x ∨ a = y ∨ a = z := by simpa using h.subset List.mem_cons_self
  · exact .inl ⟨rfl, h.cons_inv⟩
  · exact .inr (.inl ⟨rfl, (h.trans (.swap a x [z])).cons_inv⟩)
  · exact .inr (.inr ⟨rfl, (h.trans ((List.Perm.swap a y []).cons x |>.trans (.swap a x [y]))).cons_inv⟩)

/-- R45: the order of three voters is of no account. -/
theorem Verdict.full_of_perm {a b c x y z : Int} (hxy : x ≤ y) (hyz : y ≤ z) (h : [a, b, c].Perm [x, y, z]) :
    Verdict.full a b c = { voteClass := .full, offset := some y, spread := some (z - x).toNat } := by
  have sorted : median a b c = y ∧ max (max a b) c - min (min a b) c = z - x := by
    unfold median
    obtain ⟨rfl, hbc⟩ | ⟨rfl, hbc⟩ | ⟨rfl, hbc⟩ := perm_triple h <;>
      obtain ⟨rfl, rfl⟩ | ⟨rfl, rfl⟩ := perm_pair hbc <;> omega
  rw [Verdict.full, sorted.1, sorted.2]

/-- R46: nor is the order of two. -/
theorem Verdict.two_of_perm {T : Nat} {a b x y : Int} (hxy : x ≤ y) (h : [a, b].Perm [x, y]) : Verdict.two T a b =
    { voteClass := if (y - x).toNat ≤ T then .pair else .split, offset := some (x + (y - x) / 2), spread := some (y - x).toNat } := by
  have sorted : min a b = x ∧ max a b = y := by
    obtain ⟨rfl, rfl⟩ | ⟨rfl, rfl⟩ := perm_pair h <;> omega
  have half : x + (((y - x).toNat / 2 : Nat) : Int) = x + (y - x) / 2 := by omega
  simp only [Verdict.two, sorted.1, sorted.2, half]

section
variable {b : Ballot}

theorem Ballot.verdict_of_three {x y z : Int} (h : b.voters = [x, y, z]) : b.verdict = .full x y z := by simp only [Ballot.verdict, h]

theorem Ballot.verdict_of_two {x y : Int} (h : b.voters = [x, y]) : b.verdict = .two b.config.tolerance x y := by
  simp only [Ballot.verdict, h]

theorem Ballot.verdict_of_one {x : Int} (h : b.voters = [x]) :
    b.verdict = if b.config.singleLane then .degraded x else .unvoted := by simp only [Ballot.verdict, h]

theorem Ballot.verdict_of_none (h : b.voters = []) : b.verdict = .unvoted := by simp only [Ballot.verdict, h]

end

/-- Settles O23: the roles are the states', and the number of voters decides the verdict, whatever their order. -/
theorem votersDecideTheClassAndTheVotedOffset : Obligations.VotersDecideTheClassAndTheVotedOffset := by
  refine ⟨fun state => ?roles, fun b => ⟨fun _ => rfl, fun _ => rfl, rfl, fun x y z hxy hyz h => ?three, fun x y hxy h => ?two,
    fun x h => ?one, fun h => ?none⟩⟩
  case roles => cases state <;> simp [LaneState.votes, LaneState.observes]
  case three =>
    obtain ⟨p, q, r, hv⟩ := List.length_eq_three.mp h.length_eq
    rw [Ballot.verdict_of_three hv, Verdict.full_of_perm hxy hyz (hv ▸ h)]
  case two =>
    obtain ⟨p, q, hv⟩ := List.length_eq_two.mp h.length_eq
    rw [Ballot.verdict_of_two hv, Verdict.two_of_perm hxy (hv ▸ h)]
  case one => rw [Ballot.verdict_of_one h]; rfl
  case none => rw [Ballot.verdict_of_none h]; rfl

/-! ## The assessments -/

/-- R45 to R48: UNVOTED is the class with no voted offset. -/
theorem Ballot.verdict_offset_eq_none_iff (b : Ballot) : b.verdict.offset = none ↔ b.verdict.voteClass = .unvoted := by
  unfold Ballot.verdict
  split
  · simp [Verdict.full]
  · simp only [Verdict.two]
    split <;> simp
  · split <;> simp [Verdict.degraded, Verdict.unvoted]
  · simp [Verdict.unvoted]

section
variable {b : Ballot} {reason : CloseReason} {l : Lane}

theorem Ballot.assess_of_stopped (b : Ballot) (l : Lane) : b.assess .stopped l = .neutral := if_pos rfl

theorem Ballot.assess_of_not_waiting (h : (b.states.get l).waits = false) : b.assess reason l = .neutral := by
  simp [Ballot.assess, h]

theorem Ballot.assess_of_absent (hr : reason ≠ .stopped) (waits : (b.states.get l).waits = true) (absent : b.offsets.get l = none) :
    b.assess reason l = b.absent := by
  simp [Ballot.assess, hr, waits, absent]

theorem Ballot.assess_of_unvoted (present : b.offsets.get l ≠ none) (unvoted : b.verdict.offset = none) :
    b.assess reason l = .neutral := by
  obtain ⟨m, hm⟩ := Option.ne_none_iff_exists'.mp present
  simp [Ballot.assess, hm, unvoted]

/-- R51, R52: a member of a voted group is held against the voted offset, but for a voter of a SPLIT group. -/
theorem Ballot.assess_of_member {m v : Int} (hr : reason ≠ .stopped) (waits : (b.states.get l).waits = true)
    (member : b.offsets.get l = some m) (voted : b.verdict.offset = some v) :
    b.assess reason l =
      if b.verdict.voteClass = .split && (b.states.get l).votes then b.splitVoter l m else b.against m v := by
  simp [Ballot.assess, hr, waits, member, voted]

/-- R52: with no observer a voter of a SPLIT group is NEUTRAL. -/
theorem Ballot.splitVoter_of_no_observer (h : b.observers = []) (l : Lane) (x : Int) : b.splitVoter l x = .neutral := by
  unfold Ballot.splitVoter
  rw [h]
  split
  · next hcons => cases hcons
  all_goals rfl

end

theorem LaneState.waits_of_votes {state : LaneState} (h : state.votes = true) : state.waits = true := by
  cases state with
  | active | suspect => rfl
  | idle | off | probation | excluded => nomatch h

theorem LaneState.votes_of_observes {state : LaneState} (h : state.observes = true) : state.votes = false := by
  cases state with
  | probation | excluded => rfl
  | idle | off | active | suspect => nomatch h

theorem Ballot.voterOffset_eq_some {b : Ballot} {l : Lane} {x : Int} (h : b.voterOffset l = some x) :
    (b.states.get l).votes = true ∧ b.offsets.get l = some x := by
  unfold Ballot.voterOffset at h
  split at h
  · next votes => exact ⟨votes, h⟩
  · cases h

theorem Ballot.observerOffset_eq_some {b : Ballot} {l : Lane} {o : Int} (h : b.observerOffset l = some o) :
    (b.states.get l).observes = true := by
  unfold Ballot.observerOffset at h
  split at h
  · next observes => exact observes
  · cases h

/-- R42: no lane is voter and observer. -/
theorem Ballot.voterOffset_of_observer {b : Ballot} {l : Lane} {o : Int} (h : b.observerOffset l = some o) : b.voterOffset l = none :=
  if_neg (by rw [LaneState.votes_of_observes (Ballot.observerOffset_eq_some h)]; exact Bool.false_ne_true)

theorem Ballot.observerOffset_of_voter {b : Ballot} {l : Lane} {x : Int} (h : b.voterOffset l = some x) : b.observerOffset l = none := by
  refine if_neg fun observes => ?_
  exact Bool.noConfusion ((LaneState.votes_of_observes observes).symm.trans (Ballot.voterOffset_eq_some h).1)

/-- R53: of two voters each is the other's other voter. -/
theorem Ballot.otherVoter_eq {b : Ballot} {l l' m : Lane} (hl : l ≠ l') (hm : l ≠ m) (hm' : l' ≠ m) {y : Int}
    (voter : b.voterOffset l' = some y) (third : b.voterOffset m = none) : b.otherVoter l = some y := by
  cases l <;> cases l' <;> cases m <;> first | contradiction | simp [Ballot.otherVoter, Lane.all, voter, third]

theorem Ballot.observers_eq {b : Ballot} {l l' m : Lane} (hl : l ≠ l') (hm : l ≠ m) (hm' : l' ≠ m) {o : Int}
    (first : b.observerOffset l = none) (second : b.observerOffset l' = none) (third : b.observerOffset m = some o) :
    b.observers = [o] := by
  cases l <;> cases l' <;> cases m <;> first | contradiction | simp [Ballot.observers, Lane.all, first, second, third]

/-- R53: the tie-break of a SPLIT group's voter, by the one observer. -/
theorem Ballot.assess_of_split {b : Ballot} {reason : CloseReason} {l l' m : Lane} {x y o : Int} (hr : reason ≠ .stopped)
    (split : b.verdict.voteClass = .split) (hl : l ≠ l') (hm : l ≠ m) (hm' : l' ≠ m) (voter : b.voterOffset l = some x)
    (other : b.voterOffset l' = some y) (observer : b.observerOffset m = some o) : b.assess reason l = tieBreak x y o := by
  obtain ⟨votes, member⟩ := Ballot.voterOffset_eq_some voter
  obtain ⟨v, voted⟩ : ∃ v, b.verdict.offset = some v := Option.ne_none_iff_exists'.mp fun unvoted => by
    cases split.symm.trans (b.verdict_offset_eq_none_iff.mp unvoted)
  rw [Ballot.assess_of_member hr (LaneState.waits_of_votes votes) member voted, split, votes, Ballot.splitVoter,
    Ballot.otherVoter_eq hl hm hm' other (Ballot.voterOffset_of_observer observer),
    Ballot.observers_eq hl hm hm' (Ballot.observerOffset_of_voter voter) (Ballot.observerOffset_of_voter other) observer]
  rfl

/-- R53: equal distances are of no account in either order. -/
theorem tieBreak_of_equal {x y o : Int} (h : (x - o).natAbs = (y - o).natAbs) : tieBreak x y o = .neutral := if_pos h

theorem tieBreak_of_farther {x y o : Int} (h : (y - o).natAbs < (x - o).natAbs) : tieBreak x y o = .deviant := by
  unfold tieBreak distance
  rw [if_neg (Nat.ne_of_gt h), if_pos h]

theorem tieBreak_of_nearer {x y o : Int} (h : (x - o).natAbs < (y - o).natAbs) : tieBreak x y o = .good := by
  unfold tieBreak distance
  rw [if_neg (Nat.ne_of_lt h), if_neg (Nat.not_lt.mpr h.le)]

/-- Settles O24: the cases of an assessment in their order, and the tie-break seen from each of the two voters. -/
theorem everyLaneIsAssessed : Obligations.EveryLaneIsAssessed := by
  refine ⟨fun b reason l => ⟨fun h => ?stopped, fun off => ?off, fun hr waits absent => ?absent, fun hr present unvoted => ?unvoted,
    fun split votes present alone => ?alone, fun m v hr waits member voted against => ?against⟩,
    fun b reason l l' m x y o hr split hl hm hm' voter other observer => ⟨fun farther => ?farther, fun equal => ?equal⟩⟩
  case stopped => rw [h, Ballot.assess_of_stopped]
  case off => exact Ballot.assess_of_not_waiting (by rw [off]; rfl)
  case absent =>
    rw [Ballot.assess_of_absent hr waits absent, Ballot.absent]
    simp only [List.isEmpty_iff]
  case unvoted => exact Ballot.assess_of_unvoted present (b.verdict_offset_eq_none_iff.mpr unvoted)
  case alone =>
    by_cases hr : reason = .stopped
    · rw [hr, Ballot.assess_of_stopped]
    · obtain ⟨m, member⟩ := Option.ne_none_iff_exists'.mp present
      cases voted : b.verdict.offset with
      | none => exact Ballot.assess_of_unvoted present voted
      | some v =>
        rw [Ballot.assess_of_member hr (LaneState.waits_of_votes votes) member voted, split, votes]
        exact Ballot.splitVoter_of_no_observer alone l m
  case against =>
    have plain : (decide (b.verdict.voteClass = .split) && (b.states.get l).votes) = false := by
      obtain h | h := against <;> simp [h]
    rw [Ballot.assess_of_member hr waits member voted, plain]
    rfl
  case farther =>
    rw [Ballot.assess_of_split hr split hl hm hm' voter other observer,
      Ballot.assess_of_split hr split hl.symm hm' hm other voter observer]
    exact ⟨tieBreak_of_farther farther, tieBreak_of_nearer farther⟩
  case equal =>
    rw [Ballot.assess_of_split hr split hl hm hm' voter other observer,
      Ballot.assess_of_split hr split hl.symm hm' hm other voter observer]
    exact ⟨tieBreak_of_equal equal, tieBreak_of_equal equal.symm⟩

/-! ## Pass 1 -/

/-- R67: the score stays at 63 where a weight would take it beyond. -/
theorem min_maxScore (n : Nat) : min Config.maxScore n = if 63 < n then 63 else n := by
  unfold Config.maxScore
  split <;> omega

/-- R67: the new score, as a value of the assessment. -/
theorem scoreAfter_eq (c : HealthConfig) (score : Nat) (a : Assessment) : scoreAfter c score a =
    match a with
    | .good => score - 1
    | .deviant => if 63 < score + c.deviantWeight then 63 else score + c.deviantWeight
    | .missing => if 63 < score + c.missWeight then 63 else score + c.missWeight
    | .neutral => score := by
  cases a <;> simp only [scoreAfter, min_maxScore]

/-- R67, R68: pass 1 of a voting lane that is not at odds with the thresholds. NEUTRAL changes nothing, as the score it keeps gives the
state it has. -/
theorem passOne_of_voting {c : HealthConfig} {h : HealthRecord}
    (inv : h.state = .active ∧ h.score < c.suspect ∨ h.state = .suspect ∧ 1 ≤ h.score) (a : Assessment) : passOne c a h =
      { h with
        score := scoreAfter c h.score a
        state := if h.state = .active then (if c.suspect ≤ scoreAfter c h.score a then .suspect else .active)
          else (if scoreAfter c h.score a = 0 then .active else .suspect) } := by
  obtain ⟨state, score, goodRun, mark⟩ := h
  by_cases neutral : a = .neutral
  · obtain ⟨rfl, hscore⟩ | ⟨rfl, hscore⟩ := inv
    · simp [passOne, passOneVoting, neutral, scoreAfter, Nat.not_le.mpr hscore]
    · simp [passOne, passOneVoting, neutral, scoreAfter, Nat.pos_iff_ne_zero.mp hscore]
  · obtain ⟨rfl, -⟩ | ⟨rfl, -⟩ := inv <;> simp [passOne, passOneVoting, neutral, votingStateAfter]

theorem passOne_of_probation {c : HealthConfig} {h : HealthRecord} (state : h.state = .probation) (a : Assessment) :
    passOne c a h = passOneProbation c a h := by simp only [passOne, state]

theorem passOne_of_excluded {c : HealthConfig} {h : HealthRecord} (state : h.state = .excluded) (a : Assessment) :
    passOne c a h = passOneExcluded c a h := by simp only [passOne, state]

/-- Settles O25: pass 1, by the lane's state. -/
theorem passOneActsOnOneLane : Obligations.PassOneActsOnOneLane := by
  refine ⟨fun c a h n _ _ inv hn => ?voting, fun c h => ⟨fun state below => ?probation, fun state unmarked => ?excluded,
    fun state a => ?rest⟩⟩
  case voting =>
    have score : n = scoreAfter c h.score a := hn.trans (scoreAfter_eq c h.score a).symm
    rw [score, passOne_of_voting inv]
  case probation =>
    have counted : min Config.maxGoodRun (h.goodRun + 1) = h.goodRun + 1 := Nat.min_eq_right below
    simp only [passOne_of_probation state, passOneProbation, counted, HealthRecord.fresh, and_self]
  case excluded =>
    have fresh : HealthRecord.fresh .probation = { h with state := .probation, score := 0, goodRun := 0 } := by
      rw [HealthRecord.fresh, ← unmarked]
    simp only [passOne_of_excluded state, passOneExcluded, fresh, Bool.and_eq_true, decide_eq_true_iff, and_self, Config.maxGoodRun]
  case rest => obtain h | h := state <;> simp only [passOne, h]

/-! ## The reports -/

/-- R73, R74: the fields of the report of a lane, its record after the passes at hand. -/
def laneReport (hs : Lanes HealthRecord) (seq : Word) (old : LaneState) (l : Lane) : LaneFields :=
  { lane := l, old := old, new := (hs.get l).state, cause := .assessment, score := (hs.get l).score, groupSeq := some seq }

/-- R73: a lane is reported if its state differs. -/
theorem State.reportAssessed_eq {s : State} {hs : Lanes HealthRecord} (health : s.health = hs) (seq : Word) (old : LaneState) (l : Lane) :
    s.reportAssessed seq old l = if (hs.get l).state ≠ old then s.reportLane (laneReport hs seq old l) else s := by
  subst health
  exact (ite_not _ _ _).symm

/-- R66, R73: the reports of the lanes of a list that differ, one after the other. -/
theorem State.foldl_reportAssessed {hs : Lanes HealthRecord} (seq : Word) (old : Lane → LaneState) :
    ∀ (ls : List Lane) (s : State), s.health = hs →
      ls.foldl (fun u l => u.reportAssessed seq (old l) l) s =
        ((ls.filter fun l => (hs.get l).state ≠ old l).map fun l => laneReport hs seq (old l) l).foldl State.reportLane s
  | [], _, _ => rfl
  | l :: ls, s, health => by
    rw [List.foldl_cons, State.reportAssessed_eq health, List.filter_cons]
    by_cases differs : (hs.get l).state ≠ old l
    · rw [if_pos differs, if_pos (decide_eq_true differs), List.map_cons, List.foldl_cons]
      exact State.foldl_reportAssessed seq old ls _ ((s.reportLane_health _).trans health)
    · rw [if_neg differs, if_neg (by simpa using differs)]
      exact State.foldl_reportAssessed seq old ls s health

/-- R75: the flag and the offer of another report do not touch. -/
theorem State.flagLane_offer (s : State) (body : RecordBody) : s.flagLane.offer body = (s.offer body).flagLane := by
  rw [State.offer_eq, State.offer_eq]
  rfl

theorem State.foldl_offer_flagLane (fs : List LaneFields) (s : State) :
    fs.foldl (fun t f => t.offer (.lane f)) s.flagLane = (fs.foldl (fun t f => t.offer (.lane f)) s).flagLane := by
  induction fs generalizing s with
  | nil => rfl
  | cons f fs ih => rw [List.foldl_cons, State.flagLane_offer, ih, List.foldl_cons]

/-- R74, R75: reports are their offers, and the flag where there is one. -/
theorem State.foldl_reportLane (fs : List LaneFields) (s : State) :
    fs.foldl State.reportLane s =
      if fs.isEmpty then s else (fs.foldl (fun t f => t.offer (.lane f)) s).flagLane := by
  induction fs generalizing s with
  | nil => rfl
  | cons f fs ih =>
    rw [List.foldl_cons, ih, State.reportLane, State.foldl_offer_flagLane]
    cases fs <;> rfl

/-- An offer leaves the enables, and of the flags all but OVERRUN. -/
theorem State.offer_enables (s : State) (body : RecordBody) : (s.offer body).interrupt.enables = s.interrupt.enables := by
  rw [State.offer_eq]

theorem State.offer_laneFlag (s : State) (body : RecordBody) : (s.offer body).interrupt.flags.lane = s.interrupt.flags.lane := by
  rw [State.offer_eq]

theorem State.foldl_offer_enables (fs : List LaneFields) (s : State) :
    (fs.foldl (fun t f => t.offer (.lane f)) s).interrupt.enables = s.interrupt.enables := by
  induction fs generalizing s with
  | nil => rfl
  | cons f fs ih => rw [List.foldl_cons, ih, State.offer_enables]

theorem State.foldl_offer_laneFlag (fs : List LaneFields) (s : State) :
    (fs.foldl (fun t f => t.offer (.lane f)) s).interrupt.flags.lane = s.interrupt.flags.lane := by
  induction fs generalizing s with
  | nil => rfl
  | cons f fs ih => rw [List.foldl_cons, ih, State.offer_laneFlag]

/-- An offer does not look at the health records. -/
theorem State.setHealth_offer (s : State) (hs : Lanes HealthRecord) (body : RecordBody) :
    (s.setHealth hs).offer body = (s.offer body).setHealth hs := by
  rw [State.offer_eq, State.offer_eq]
  rfl

theorem State.foldl_offer_setHealth (fs : List LaneFields) (s : State) (hs : Lanes HealthRecord) :
    fs.foldl (fun t f => t.offer (.lane f)) (s.setHealth hs) = (fs.foldl (fun t f => t.offer (.lane f)) s).setHealth hs := by
  induction fs generalizing s with
  | nil => rfl
  | cons f fs ih => rw [List.foldl_cons, State.setHealth_offer, ih, List.foldl_cons]

/-- Settles O27: the reports of the lanes that differ are offers in lane order, with the flag where there is one. -/
theorem assessedLanesAreReportedInLaneOrder : Obligations.AssessedLanesAreReportedInLaneOrder := by
  intro r s hs fields hhs hfields
  have passes : s.assess r = fields.foldl State.reportLane (s.setHealth hs) := by
    rw [hfields, hhs]
    exact State.foldl_reportAssessed r.seq (fun l => (s.health.get l).state) Lane.all (s.setHealth (assessLanes s.healthConfig _ _)) rfl
  rw [passes, State.foldl_reportLane]
  have start : ({ s with health := hs } : State) = s.setHealth hs := rfl
  rw [start, State.foldl_offer_setHealth]
  generalize hu : fields.foldl (fun t f => t.offer (.lane f)) s = u
  have enables : u.interrupt.enables = s.interrupt.enables := hu ▸ State.foldl_offer_enables fields s
  have laneFlag : u.interrupt.flags.lane = s.interrupt.flags.lane := hu ▸ State.foldl_offer_laneFlag fields s
  rw [← enables, ← laneFlag]
  cases hfs : fields with
  | nil =>
    rw [hfs] at hu
    rw [← hu]
    simp only [List.isEmpty_nil, List.foldl_nil, Bool.not_true, Bool.or_false, if_true]
    rfl
  | cons f fs =>
    simp only [List.isEmpty_cons, Bool.not_false, Bool.or_true]
    rfl

end Sys2Proof.Machine
end

section
/-! PROOF. The period tracker: groups that are no anchor, anchors, stall, and the limit and timeout writes (R82 to R97). -/

namespace Sys2Proof.Machine

/-! ## Groups and anchors -/

theorem State.track_of_unvoted {r : VoteResult} (h : r.reason = .stopped ∨ r.votedTime = none) (s : State) :
    s.track r = s.offer (r.record .untested) := by
  rcases h with reason | voted
  · simp only [State.track, reason]
  · cases reason : r.reason <;> simp only [State.track, reason, voted]

theorem State.track_of_voted {r : VoteResult} {v : Time} (reason : r.reason ≠ .stopped) (voted : r.votedTime = some v) (s : State) :
    s.track r = if s.tracker.outOfOrder v then s.trackOutOfOrder r else s.trackAnchor r v := by
  cases h : r.reason
  case stopped => exact absurd h reason
  all_goals simp only [State.track, h, voted]

/-- Settles O28: the untested groups, and the test for order. -/
theorem groupThatIsNoAnchorLeavesTheTracker : Obligations.GroupThatIsNoAnchorLeavesTheTracker := by
  refine fun r s => ⟨fun h => s.track_of_unvoted h, fun v last reason voted held notLater => ?_⟩
  have outOfOrder : s.tracker.outOfOrder v = true := by simp only [Tracker.outOfOrder, held, notLater]
  rw [State.track_of_voted reason voted, if_pos outOfOrder]
  rfl

/-- R86: the limiter, by where the raw period lies. -/
theorem Limits.clamp_eq {l : Limits} {raw p : Time} {status : LimiterStatus}
    (h : (raw.toNat < l.lower.toNat ∧ status = .below ∧ p = l.lower) ∨
      (l.lower.toNat ≤ raw.toNat ∧ l.upper.toNat < raw.toNat ∧ status = .above ∧ p = l.upper) ∨
      (l.lower.toNat ≤ raw.toNat ∧ raw.toNat ≤ l.upper.toNat ∧ status = .within ∧ p = raw)) :
    l.clamp raw = (status, p) := by
  unfold Limits.clamp
  rcases h with ⟨below, rfl, rfl⟩ | ⟨low, above, rfl, rfl⟩ | ⟨low, high, rfl, rfl⟩
  · rw [if_pos below]
  · rw [if_neg (by omega), if_pos above]
  · rw [if_neg (by omega), if_neg (by omega)]

theorem offLimits_some (status : LimiterStatus) : offLimits (some status) = decide (status ≠ .within) := by
  cases status <;> rfl

/-- Setting the LIMIT flag of a status off the limits. -/
theorem State.flagLimit_of (s : State) (off : Bool) : (if off then s.flagLimit else s) =
    { s with interrupt := { s.interrupt with flags := { s.interrupt.flags with limit := s.interrupt.flags.limit || off } } } := by
  cases off
  · simp only [Bool.or_false, Bool.false_eq_true, if_false]
  · simp only [Bool.or_true, if_true]
    rfl

theorem State.trackAnchor_eq (r : VoteResult) (v : Time) (s : State) : s.trackAnchor r v =
    (State.offer
      { s with
        tracker := s.tracker.anchor s.limits v
        interrupt := { s.interrupt with flags := { s.interrupt.flags with
          limit := s.interrupt.flags.limit || offLimits ((s.tracker.limited s.limits v).map Prod.fst) } } }
      (r.record (s.tracker.anchorFindings s.limits v))).takeNotice
      { index := s.tracker.anchorCount, voted := v, period := (s.tracker.anchor s.limits v).refPeriod } := by
  simp only [State.trackAnchor]
  rw [State.flagLimit_of]
  rfl

/-- Settles O29: the first anchor after none, and an anchor with a raw period. -/
theorem anchorMeasuresLimitsAndNotifies : Obligations.AnchorMeasuresLimitsAndNotifies := by
  intro r v s record reason voted hrecord
  rw [State.track_of_voted reason voted, hrecord]
  refine ⟨fun none noPeriod => ?_, fun last raw p status held isLater hraw limited => ?_⟩
  · have inOrder : s.tracker.outOfOrder v = false := by simp only [Tracker.outOfOrder, none]
    have unlimited : s.tracker.limited s.limits v = .none := by simp only [Tracker.limited, Tracker.rawPeriod, none, Option.map_none]
    have unmeasured : s.tracker.rawPeriod v = .none := by simp only [Tracker.rawPeriod, none, Option.map_none]
    rw [inOrder, if_neg Bool.false_ne_true, State.trackAnchor_eq, Tracker.anchorFindings, Tracker.anchor, unlimited, unmeasured, noPeriod]
    simp only [Option.map_none, offLimits, Bool.or_false]
    rfl
  · have inOrder : s.tracker.outOfOrder v = false := by
      simp only [Tracker.outOfOrder, held]
      exact Bool.eq_false_iff.mpr ((later_iff_not_notLater v last).mp isLater)
    have measured : s.tracker.rawPeriod v = some raw := by rw [Tracker.rawPeriod, held, Option.map_some, hraw]
    have clamped : s.tracker.limited s.limits v = some (status, p) := by
      rw [Tracker.limited, measured, Option.map_some, Limits.clamp_eq limited]
    rw [inOrder, if_neg Bool.false_ne_true, State.trackAnchor_eq, Tracker.anchorFindings, Tracker.anchor, clamped, measured]
    simp only [Option.map_some, offLimits_some]
    rfl

/-! ## Stall -/

theorem exec_stallExpiry_eq (s : State) : exec .stallExpiry s = s.accept (if s.stallDue then s.expireStall else s) := by rfl

theorem State.stallDue_iff (s : State) : s.stallDue = true ↔
    s.command.partState = .run ∧ s.tracker.stall = .watching ∧
      s.limits.timeout.toNat ≤ (s.timebase.now - s.tracker.origin).toNat := by
  simp only [State.stallDue, Bool.and_eq_true, decide_eq_true_eq, State.inRun_eq_true_iff, and_assoc]
  rfl

/-- Settles O30: the expiry when it is due, and the command when it is not. -/
theorem stallDiscardsThePeriod : Obligations.StallDiscardsThePeriod := by
  refine fun s => ⟨fun released run watching due => ?_, fun idle => ?_⟩
  · refine exec_next_of_accept released ?_
    rw [exec_stallExpiry_eq, if_pos (s.stallDue_iff.mpr ⟨run, watching, due⟩), State.expireStall_eq]
  · have notDue : ¬ s.stallDue = true := by
      rw [State.stallDue_iff]
      rintro ⟨run, watching, due⟩
      rcases idle with config | stalled | early
      · rw [config] at run
        nomatch run
      · rw [stalled] at watching
        nomatch watching
      · exact absurd due (by omega)
    rw [exec_stallExpiry_eq, if_neg notDue, State.accept_self]

/-! ## Limit and timeout writes -/

theorem exec_pairLowWrite_of_tag {s : State} {pair : WritablePair} (h : s.window.writeTag = some pair) (low : Word) :
    exec (.pairLowWrite pair low) s =
      s.accept (({ s with window := { s.window with writeTag := none } } : State).writePair pair (s.window.writeValue ++ low)) := by
  have : exec (.pairLowWrite pair low) s = execPairLowWrite pair low s := by rfl
  rw [this, execPairLowWrite, if_pos h]
  rfl

/-- R190: a write refused for its value. -/
theorem State.busValue_eq (s : State) : s.busValue =
    { s with
      window := { s.window with busStatus := { s.window.busStatus with value := true } }
      interrupt := { s.interrupt with flags := { s.interrupt.flags with access := true } } } := by rfl

/-- R94: the reference period between new limits. -/
theorem Limits.clamp_snd (l : Limits) (p : Time) :
    (l.clamp p).2 = if p.toNat < l.lower.toNat then l.lower else if l.upper.toNat < p.toNat then l.upper else p := by
  unfold Limits.clamp
  split
  · rfl
  · split <;> rfl

theorem State.takeLimits_eq (s : State) (l : Limits) : s.takeLimits l =
    { s with
      limits := l
      tracker := { s.tracker with refPeriod := s.tracker.refPeriod.map fun p =>
        if p.toNat < l.lower.toNat then l.lower else if l.upper.toNat < p.toNat then l.upper else p } } := by
  simp only [State.takeLimits, Tracker.reclamp, Limits.clamp_snd]
  rfl

/-- R93, R94: the limits with the written one. -/
def Limits.written (l : Limits) (pair : WritablePair) (v : Time) : Limits :=
  if pair = .pmin then { l with lower := v } else { l with upper := v }

/-- R93: what RUN asks of a written limit. -/
def Limits.takes (l : Limits) (pair : WritablePair) (v : Time) : Prop :=
  if pair = .pmin then 1 ≤ v.toNat ∧ v.toNat < l.upper.toNat else l.lower.toNat < v.toNat ∧ v.toNat < 2 ^ 28

theorem State.writePair_of_config {s : State} (config : s.inRun = false) {pair : WritablePair} (h : pair ≠ .stallto) (v : Time) :
    s.writePair pair v = s.setLimits (s.limits.written pair v) := by
  cases pair with
  | pmin => simp only [State.writePair, State.writePmin, config, Bool.false_eq_true, if_false, Limits.written, if_true]
  | pmax =>
    simp only [State.writePair, State.writePmax, config, Bool.false_eq_true, if_false]
    rfl
  | stallto => exact absurd rfl h

theorem State.writePair_of_taken {s : State} (run : s.inRun = true) {pair : WritablePair} (h : pair ≠ .stallto) {v : Time}
    (taken : s.limits.takes pair v) : s.writePair pair v = s.takeLimits (s.limits.written pair v) := by
  cases pair with
  | pmin =>
    have test : (1 ≤ v.toNat && v.toNat < s.limits.upper.toNat) = true := by simpa [Limits.takes] using taken
    simp only [State.writePair, State.writePmin, run, if_true, test, Limits.written]
  | pmax =>
    have test : (s.limits.lower.toNat < v.toNat && v.toNat < Config.periodBound) = true := by
      simpa [Limits.takes, Config.periodBound] using taken
    simp only [State.writePair, State.writePmax, run, if_true, test]
    rfl
  | stallto => exact absurd rfl h

theorem State.writePair_of_refused {s : State} (run : s.inRun = true) {pair : WritablePair} (h : pair ≠ .stallto) {v : Time}
    (refused : ¬ s.limits.takes pair v) : s.writePair pair v = s.busValue := by
  cases pair with
  | pmin =>
    have test : ¬ (1 ≤ v.toNat && v.toNat < s.limits.upper.toNat) = true := by simpa [Limits.takes] using refused
    simp only [State.writePair, State.writePmin, run, if_true, if_neg test]
  | pmax =>
    have test : ¬ (s.limits.lower.toNat < v.toNat && v.toNat < Config.periodBound) = true := by
      simpa [Limits.takes, Config.periodBound] using refused
    simp only [State.writePair, State.writePmax, run, if_true, if_neg test]
  | stallto => exact absurd rfl h

/-- Settles O31: a limit in CONFIG, one that RUN takes, and one that RUN refuses. -/
theorem limitWriteIsCheckedInRunAndReclamps : Obligations.LimitWriteIsCheckedInRunAndReclamps := by
  intro pair low s u v l released limit tag hv hu hl
  have written : exec (.pairLowWrite pair low) s = s.accept (u.writePair pair v) := by rw [exec_pairLowWrite_of_tag tag, hv, hu]
  have limits : l = u.limits.written pair v := by rw [hl, hu]; rfl
  refine ⟨fun config => ?_, fun run taken => ?_, fun run refused => ?_⟩
  · have config : u.inRun = false := (State.inRun_eq_false_iff u).mpr (hu ▸ config)
    rw [exec_next_of_accept released written, State.writePair_of_config config limit, limits]
    rfl
  · have run : u.inRun = true := (State.inRun_eq_true_iff u).mpr (hu ▸ run)
    have taken : u.limits.takes pair v := hu ▸ taken
    rw [exec_next_of_accept released written, State.writePair_of_taken run limit taken, State.takeLimits_eq, limits, hu]
  · have run : u.inRun = true := (State.inRun_eq_true_iff u).mpr (hu ▸ run)
    have refused : ¬ u.limits.takes pair v := hu ▸ refused
    rw [exec_next_of_accept released written, State.writePair_of_refused run limit refused, State.busValue_eq, hu]

theorem timeoutInRange_iff (timeout : Time) (w d : Nat) :
    timeoutInRange timeout w d = true ↔ 2 * (w + d) < timeout.toNat ∧ timeout.toNat < 2 ^ 30 := by
  simp only [timeoutInRange, Bool.and_eq_true, decide_eq_true_eq]

/-- R95: a timeout that a run takes, with the expiry it may make due. -/
theorem State.writeStallto_of_taken {s : State} (run : s.inRun = true) {v : Time}
    (taken : timeoutInRange v s.table.window s.table.settle = true) {u : State} (hu : u = s.setLimits { s.limits with timeout := v }) :
    s.writeStallto v = if u.stallDue then u.expireStall else u := by
  simp only [State.writeStallto, run, taken, if_true, hu]

theorem State.writeStallto_of_refused {s : State} (run : s.inRun = true) {v : Time}
    (refused : ¬ timeoutInRange v s.table.window s.table.settle = true) : s.writeStallto v = s.busValue := by
  simp only [State.writeStallto, run, if_true, if_neg refused]

/-- Settles O32: a timeout in CONFIG, one that RUN takes, with its expiry, and one that RUN refuses. -/
theorem timeoutWriteMayExpireTheTracker : Obligations.TimeoutWriteMayExpireTheTracker := by
  intro low s u v released tag hv hu
  have written := exec_next_of_accept released (exec_pairLowWrite_of_tag tag low)
  rw [← hv] at written
  have limits : u = ({ s with window := { s.window with writeTag := none } } : State).setLimits { s.limits with timeout := v } := hu
  refine ⟨fun config => ?_, fun run low high => ?_, fun run out => ?_⟩
  · rw [written, State.writePair, State.writeStallto]
    simp only [State.inRun, config, limits, reduceCtorEq, decide_false, Bool.false_eq_true, if_false]
  · have taken : timeoutInRange v s.table.window s.table.settle = true := (timeoutInRange_iff v _ _).mpr ⟨low, high⟩
    have runU : u.command.partState = .run := hu ▸ run
    have releasedU : u.resetAsserted = false := hu ▸ released
    have due : u.stallDue = true ↔ s.tracker.stall = .watching ∧ v.toNat ≤ (s.timebase.now - s.tracker.origin).toNat := by
      rw [State.stallDue_iff, hu]
      exact and_iff_right run
    rw [written, State.writePair, State.writeStallto_of_taken (s := { s with window := { s.window with writeTag := none } })
      ((State.inRun_eq_true_iff s).mpr run) taken limits]
    by_cases h : u.stallDue = true
    · rw [if_pos h, if_pos (due.mp h)]
      exact (exec_next_of_accept releasedU (by rw [exec_stallExpiry_eq, if_pos h])).symm
    · rw [if_neg h, if_neg (mt due.mpr h)]
  · have refused : ¬ timeoutInRange v s.table.window s.table.settle = true := by
      rw [timeoutInRange_iff]
      omega
    rw [written, State.writePair, State.writeStallto_of_refused (s := { s with window := { s.window with writeTag := none } })
      ((State.inRun_eq_true_iff s).mpr run) refused, State.busValue_eq, hu]

end Sys2Proof.Machine
end

section
/-! PROOF. The event queue's ACK EVENT, and the work of an anchor notice (R108, R109, R126 to R132). -/

namespace Sys2Proof.Machine

/-! ## ACK EVENT -/

/-- The instruction of an event on its own. -/
def instrOfEvent : TickEvent → Instr
  | .sample lane level => .laneSample lane level
  | .arrival lane stamp => .arrival lane stamp
  | .groupExpiry rank => .groupExpiry rank

/-- An event on its own is its act on what it presents. -/
theorem exec_instrOfEvent (e : TickEvent) (s : State) : exec (instrOfEvent e) s = (s.present e).accept ((s.present e).act e) := by
  cases e <;> rfl

theorem eq_instrOfEvent {e : TickEvent} {c : Instr}
    (h : (∃ lane level, e = .sample lane level ∧ c = .laneSample lane level) ∨
      (∃ lane stamp, e = .arrival lane stamp ∧ c = .arrival lane stamp) ∨ ∃ rank, e = .groupExpiry rank ∧ c = .groupExpiry rank) :
    c = instrOfEvent e := by
  rcases h with ⟨lane, level, rfl, rfl⟩ | ⟨lane, stamp, rfl, rfl⟩ | ⟨rank, rfl, rfl⟩ <;> rfl

theorem State.present_resetAsserted (s : State) (e : TickEvent) : (s.present e).resetAsserted = s.resetAsserted := by
  cases e <;> rfl

/-- What an event presents does not touch the queue. -/
theorem State.present_awaitAcks (s : State) (e : TickEvent) (acks : List Nat) :
    (s.awaitAcks acks).present e = (s.present e).awaitAcks acks := by
  cases e <;> rfl

theorem exec_ackEvent_eq (arg : BitVec 8) (s : State) : exec (.ackEvent arg none) s = s.accept s.acknowledge := by rfl

theorem exec_ackEvent_during_eq (arg : BitVec 8) (place : AckPlace) (s : State) :
    exec (.ackEvent arg (some place)) s = (s.present place.event).accept ((s.present place.event).actWithAcks place) := by rfl

theorem EventQueue.await_nil (q : EventQueue) : q.await [] = { q with acks := [] } := rfl

theorem EventQueue.await_zero (q : EventQueue) (rest : List Nat) : q.await (0 :: rest) = q.acknowledge.await rest := rfl

theorem EventQueue.await_succ (q : EventQueue) (n : Nat) (rest : List Nat) :
    q.await ((n + 1) :: rest) = { q with acks := (n + 1) :: rest } := rfl

theorem EventQueue.acknowledge_of_empty {q : EventQueue} (h : q.records = []) : q.acknowledge = { q with ackAnswer := .state } := by
  simp only [EventQueue.acknowledge, h]

theorem EventQueue.acknowledge_of_cons {q : EventQueue} {head : Record} {others : List Record} (h : q.records = head :: others) :
    q.acknowledge = { q with records := others, ackAnswer := .done } := by
  simp only [EventQueue.acknowledge, h]

/-- An append does not look at the awaited ACK EVENTs. -/
theorem EventQueue.enqueue_setAcks (q : EventQueue) (a : List Nat) (body : RecordBody) :
    ({ q with acks := a } : EventQueue).enqueue body = { q.enqueue body with acks := a } := by
  unfold EventQueue.enqueue EventQueue.drops EventQueue.overrunTail EventQueue.append
  dsimp only
  split
  · split <;> rfl
  · rfl

/-- R109: with an ACK EVENT awaited behind `n + 1` offers, an offer is answered and the ACK EVENT awaited behind `n`. -/
theorem EventQueue.offer_of_awaited {q : EventQueue} {n : Nat} {rest : List Nat} (h : q.acks = (n + 1) :: rest) (body : RecordBody) :
    q.offer body = (EventQueue.offer { q with acks := [] } body).await (n :: rest) := by
  rw [EventQueue.offer_eq_enqueue (q := { q with acks := [] }) rfl, EventQueue.enqueue_setAcks, EventQueue.await_setAcks]
  simp only [EventQueue.offer, EventQueue.passOffer, EventQueue.enqueue_acks, h, Nat.add_sub_cancel]

theorem EventQueue.endAct_of_none {q : EventQueue} (h : q.acks = []) : q.endAct = q := by
  cases q
  cases h
  rfl

theorem EventQueue.endAct_of_cons {q : EventQueue} {n : Nat} {rest : List Nat} (h : q.acks = n :: rest) :
    q.endAct = (EventQueue.acknowledge { q with acks := rest }).endAct := by
  simp only [EventQueue.endAct, h, List.foldl_cons, EventQueue.acknowledge_setAcks]

theorem State.acknowledge_of_cons {s : State} {head : Record} {rest : List Record} (h : s.queue.records = head :: rest) :
    s.acknowledge =
      { s with
        queue := { s.queue with records := rest }
        command := { s.command with code := 0x0B, result := .done, startError := 0 } } := by
  simp only [State.acknowledge, h]
  rfl

theorem State.acknowledge_of_empty {s : State} (h : s.queue.records = []) :
    s.acknowledge = { s with command := { s.command with code := 0x0B, result := .state, startError := 0 } } := by
  simp only [State.acknowledge, h]
  rfl

/-- Settles O34: ACK EVENT on its own, within an act, and what the queue makes of the awaited ones. -/
theorem ackEventRemovesTheHead : Obligations.AckEventRemovesTheHead := by
  refine ⟨fun arg s released => ⟨fun head rest h => ?_, fun h => ?_, fun place c hc => ?_⟩,
    fun q n rest => ⟨q.acknowledge_of_empty, fun _ _ => q.acknowledge_of_cons, q.await_nil, q.await_zero rest, q.await_succ n rest,
      fun h body => EventQueue.offer_of_awaited h body, EventQueue.endAct_of_none, EventQueue.endAct_of_cons⟩⟩
  · rw [exec_next_of_accept released (exec_ackEvent_eq arg s), State.acknowledge_of_cons h]
  · rw [exec_next_of_accept released (exec_ackEvent_eq arg s), State.acknowledge_of_empty h]
  · have presented : (s.present place.event).resetAsserted = false := (s.present_resetAsserted _).trans released
    refine ⟨((s.present place.event).awaitAcks (place.after :: place.further)).act place.event, ?_, ?_⟩
    · rw [eq_instrOfEvent hc, exec_instrOfEvent]
      have start : ({ s with queue := s.queue.await (place.after :: place.further) } : State).present place.event =
          (s.present place.event).awaitAcks (place.after :: place.further) := s.present_awaitAcks _ _
      rw [start, State.accept_released (s := (s.present place.event).awaitAcks (place.after :: place.further)) presented]
    · rw [exec_ackEvent_during_eq, State.accept_released presented, State.actWithAcks, State.endAct_eq]

end Sys2Proof.Machine
end

section
/-! PROOF. The work of an anchor notice: the commit, the entries of the active bank, and a late entry (R126 to R132). -/

namespace Sys2Proof.Machine

/-! ## The notice -/

theorem State.takeCommit_of_pending {s : State} (h : s.schedule.commit = .pending) (index : Time) : s.takeCommit index =
    { s with
      schedule := { s.schedule with active := s.schedule.active.other, commit := .done }
      queue := s.queue.offer (.commit s.schedule.active.other index)
      interrupt := { s.interrupt with flags := { s.interrupt.flags with
        commit := true, overrun := s.interrupt.flags.overrun || decide (31 ≤ s.queue.records.length) } } } := by
  simp only [State.takeCommit, h, if_true, State.offer_eq, State.flagCommit, State.setFlags, State.setInterrupt, State.setSchedule,
    Schedule.exchange]

theorem State.takeCommit_of_no_pending {s : State} (h : s.schedule.commit ≠ .pending) (index : Time) : s.takeCommit index = s := if_neg h

/-- Settles O36: the notice is its two steps on the queue that awaits no ACK EVENT, which is awaited again behind them. -/
theorem noticeTakesTheCommitThenArmsInOrder : Obligations.NoticeTakesTheCommitThenArmsInOrder := by
  intro n s held u hheld idle pending t
  have taken : held.takeCommit n.index = u := by
    by_cases h : s.schedule.commit = .pending
    · rw [pending h, State.takeCommit_of_pending (hheld ▸ h : held.schedule.commit = .pending), hheld]
    · rw [idle h, State.takeCommit_of_no_pending (hheld ▸ h : held.schedule.commit ≠ .pending)]
  have work : held.workNotice n = t := by
    rw [State.workNotice, taken, State.armEntries_eq_foldl]
  have noAcks : t.queue.acks = [] := work ▸ (held.workNotice_offered n).acks (by rw [hheld])
  have notice : s.takeNotice n = { t with queue := t.queue.resume s.queue.acks } := by
    rw [← work, hheld]
    rfl
  refine ⟨noAcks, fun none => ?_, fun k rest awaited => ?_⟩
  · rw [notice, none, EventQueue.resume_nil noAcks]
  · rw [notice, awaited, EventQueue.resume_cons]

/-! ## One entry -/

theorem State.miss_eq (s : State) (entry : Nat) (index : Time) (reason : MissedReason) : s.miss entry index reason =
    { s with
      queue := s.queue.offer (.missed entry s.schedule.active index reason)
      interrupt := { s.interrupt with flags := { s.interrupt.flags with
        missed := true, overrun := s.interrupt.flags.overrun || decide (31 ≤ s.queue.records.length) } }
      stats := { s.stats with live := { s.stats.live with missed := saturatingNext s.stats.live.missed } } } := by
  simp only [State.miss, State.offer_eq, State.flagMissed, State.setFlags, State.setInterrupt, State.count, State.setStats]

theorem Entry.selected_iff (e : Entry) (n : Time) : e.selected n = true ↔ e.enabled = true ∧ n.toNat % 2 ^ e.exponent = e.phase := by
  simp only [Entry.selected, Bool.and_eq_true, decide_eq_true_eq]

/-- R129: the delay of an entry, by its mode. -/
theorem Entry.delayTicks_eq {e : Entry} {period : Option Time} {delay : Nat}
    (h : (e.mode = .ticks ∧ delay = e.delay) ∨ ∃ p, e.mode = .fraction ∧ period = some p ∧ delay = e.delay * p.toNat / 1024) :
    e.delayTicks period = some delay := by
  rcases h with ⟨mode, rfl⟩ | ⟨p, mode, rfl, rfl⟩ <;> simp only [Entry.delayTicks, mode]

section
variable {n : Notice} {e : Entry}

theorem State.armEntry_of_unselected (h : ¬ e.selected n.index = true) (s : State) (i : Nat) : s.armEntry n i e = s := if_neg h

theorem State.armEntry_of_no_period (h : e.selected n.index = true) (none : e.delayTicks n.period = none) (s : State) (i : Nat) :
    s.armEntry n i e = s.miss i n.index .noPeriod := by
  simp only [State.armEntry, h, if_true, none]

theorem State.armEntry_of_delay (h : e.selected n.index = true) {delay : Nat} (hdelay : e.delayTicks n.period = some delay) (s : State)
    (i : Nat) : s.armEntry n i e =
      if (e.armedAction i n delay).isDue s.now then s.armLate (e.armedAction i n delay) else s.armLater (e.armedAction i n delay) := by
  simp only [State.armEntry, h, if_true, hdelay]

end

theorem State.armedFull_iff (s : State) : s.armedFull = true ↔ 16 ≤ s.armed.length := by
  simp only [State.armedFull, decide_eq_true_eq]

/-- R1: a later time is not due. -/
theorem not_notLater_of_later {a b : Time} (h : later a b = true) : ¬ notLater a b = true := (later_iff_not_notLater a b).mp h

/-- Settles O37: the report, an entry not selected, one with no period, and one due later. -/
theorem selectedEntryIsArmedOrMissed : Obligations.SelectedEntryIsArmedOrMissed := by
  refine fun n i e s => ⟨fun reason => s.miss_eq i n.index reason, fun h => ?_, fun enabled phase fraction noPeriod => ?_,
    fun delay due enabled phase hdelay hdue isLater => ?_⟩
  · refine State.armEntry_of_unselected (mt (e.selected_iff n.index).mp ?_) s i
    rintro ⟨enabled, phase⟩
    rcases h with disabled | off
    · exact Bool.false_ne_true (disabled.symm.trans enabled)
    · exact off phase
  · refine State.armEntry_of_no_period ((e.selected_iff n.index).mpr ⟨enabled, phase⟩) ?_ s i
    simp only [Entry.delayTicks, fraction, noPeriod]
  · rw [State.armEntry_of_delay ((e.selected_iff n.index).mpr ⟨enabled, phase⟩) (Entry.delayTicks_eq hdelay) s i]
    have notDue : ¬ (e.armedAction i n delay).isDue s.now = true := by
      rw [hdue] at isLater
      exact not_notLater_of_later isLater
    rw [if_neg notDue, State.armLater]
    by_cases full : s.armed.length < 16
    · rw [if_pos full, if_neg (mt s.armedFull_iff.mp (Nat.not_le.mpr full)), hdue]
      rfl
    · rw [if_neg full, if_pos (s.armedFull_iff.mpr (Nat.not_lt.mp full))]
      rfl

/-! ## A late entry -/

section
variable {s : State} {x : ArmedAction}

theorem State.armLate_of_skip (h : s.schedule.latePolicy = .skip) : s.armLate x = s.miss x.entry x.anchor .late := by
  simp only [State.armLate, h]

theorem State.armLate_of_execute (h : s.schedule.latePolicy = .execute) : s.armLate x = s.executeLate x := by
  simp only [State.armLate, h]

theorem State.executeLate_of_level (h : x.action.isPulse = false) :
    s.executeLate x = (s.drive x.line x.action .leading).countLate := if_neg (Bool.eq_false_iff.mp h)

theorem State.executeLate_of_ended (h : x.action.isPulse = true) (ended : x.trailing.isDue s.now = true) :
    s.executeLate x = ((s.drive x.line x.action .leading).drive x.line x.action .trailing).countLate := by
  simp only [State.executeLate, h, ended, if_true]

theorem State.executeLate_of_full (h : x.action.isPulse = true) (open_ : ¬ x.trailing.isDue s.now = true) (full : s.armedFull = true) :
    s.executeLate x = s.miss x.entry x.anchor .full := by
  simp only [State.executeLate, h, if_neg open_, full, if_true]

theorem State.executeLate_of_room (h : x.action.isPulse = true) (open_ : ¬ x.trailing.isDue s.now = true)
    (room : ¬ s.armedFull = true) :
    s.executeLate x = ((s.drive x.line x.action .leading).arm x.trailing).countLate := by
  simp only [State.executeLate, h, if_neg open_, if_neg room, if_true]

end

/-- R138: a pulse does not look at the latch before. -/
theorem latchAfter_of_pulse {a : Action} (h : a.isPulse = true) (phase : Phase) (before : Bool) :
    latchAfter a phase before = latchAfter a phase false := by
  cases a with
  | pulseHigh | pulseLow => cases phase <;> rfl
  | set | clear | toggle => nomatch h

/-- Settles O38: SKIP, a late level action, and a late pulse that has ended, goes on, or finds the list full. -/
theorem lateEntryFollowsTheLatePolicy : Obligations.LateEntryFollowsTheLatePolicy := by
  intro n i e s late delay due enabled phase hdelay hdue isLate hlate
  have armed : s.armEntry n i e = s.armLate (e.armedAction i n delay) := by
    rw [State.armEntry_of_delay ((e.selected_iff n.index).mpr ⟨enabled, phase⟩) (Entry.delayTicks_eq hdelay) s i, if_pos]
    rw [hdue] at isLate
    exact isLate
  have goesOn (h : later (due + BitVec.ofNat 32 e.width) s.timebase.now = true) :
      ¬ (e.armedAction i n delay).trailing.isDue s.now = true := by
    rw [hdue] at h
    exact not_notLater_of_later h
  rw [armed]
  refine ⟨fun skip => State.armLate_of_skip skip, fun execute level => ?_, fun execute pulse ended => ?_,
    fun execute pulse open_ room => ?_, fun execute pulse open_ full => ?_⟩
  · rw [State.armLate_of_execute execute, State.executeLate_of_level level, hlate]
    rfl
  · have ended : (e.armedAction i n delay).trailing.isDue s.now = true := by
      rw [hdue] at ended
      exact ended
    rw [State.armLate_of_execute execute, State.executeLate_of_ended pulse ended, hlate,
      ← latchAfter_of_pulse pulse .trailing (latchAfter e.action .leading (s.output.latch.get e.line))]
    simp only [State.drive, State.countLate, State.count, State.setOutput, State.setStats, Entry.armedAction, Lines.get_set_same,
      Lines.set_set]
  · rw [State.armLate_of_execute execute, State.executeLate_of_room pulse (goesOn open_) (mt s.armedFull_iff.mp (Nat.not_le.mpr room)),
      hlate, hdue, ← latchAfter_of_pulse pulse .leading (s.output.latch.get e.line)]
    rfl
  · exact (State.armLate_of_execute execute).trans
      (State.executeLate_of_full pulse (goesOn open_) (s.armedFull_iff.mpr full))

/-! ## The armed list -/

/-- Settles O41: where an action enters the list, and the order by due time, anchor and entry. -/
theorem armedActionTakesItsPlace : Obligations.ArmedActionTakesItsPlace := by
  refine ⟨fun count x l => ?_, fun count x y => ⟨fun due => if_neg due, fun due anchor => ?_, fun due anchor => ?_⟩⟩
  · obtain ⟨before, after, hl, inserted, passed, stands⟩ := insertArmed_split count x l
    exact ⟨before, after, hl, inserted, passed, fun y rest hafter => stands y (by rw [hafter, List.head?_cons])⟩
  · rw [standsBefore, if_pos due, if_neg anchor, decide_eq_true_eq]
    rfl
  · rw [standsBefore, if_pos due, if_pos anchor, decide_eq_true_eq]

end Sys2Proof.Machine
end

section
/-! PROOF. The entry window, the expiry of the armed head, and OUTCFG (R118 to R121, R137 to R139, R146, R147). -/

namespace Sys2Proof.Machine

/-! ## Fields of a word -/

theorem field_getLsbD (w : Word) (lo len i : Nat) : (field w lo len).getLsbD i = (decide (i < len) && w.getLsbD (lo + i)) :=
  BitVec.getLsbD_extractLsb' ..

/-- A field put back where it was taken is the word under the field's mask. -/
theorem place_field (w : Word) (lo len : Nat) : place (field w lo len) lo = w &&& place (BitVec.allOnes len) lo := by
  refine BitVec.eq_of_getLsbD_eq fun i hi => ?_
  rw [place_getLsbD, field_getLsbD, BitVec.getLsbD_and, place_getLsbD, BitVec.getLsbD_allOnes]
  by_cases h : lo ≤ i
  · rw [Nat.add_sub_cancel' h]
    simp [hi, h, Bool.and_comm]
  · simp [h]

theorem ofBool_bit (w : Word) (n : Nat) : BitVec.ofBool (bit w n) = field w n 1 := by
  refine BitVec.eq_of_getLsbD_eq fun i hi => ?_
  obtain rfl : i = 0 := by omega
  rw [field_getLsbD, BitVec.getLsbD_ofBool]
  simp [bit]

theorem placeBit_bit (w : Word) (n : Nat) : placeBit (bit w n) n = w &&& place (BitVec.allOnes 1) n := by
  rw [placeBit, ofBool_bit, place_field]

/-! ## The staging -/

theorem delayModeBit_ofBit (b : Bool) : delayModeBit (delayModeOfBit b) = b := by cases b <;> rfl

theorem delayModeOfBit_eq (b : Bool) : delayModeOfBit b = if b = true then .fraction else .ticks := by cases b <;> rfl

theorem lineField_toNat (w : Word) : (field w 1 2).toNat = w.toNat / 2 % 4 := by
  simp [field, BitVec.extractLsb'_toNat, Nat.shiftRight_eq_div_pow]

theorem Staging.read_write_estg0 (g : Staging) (w : Word) {line : Line} (h : w.toNat / 2 % 4 = lineIndex line) :
    (g.write .estg0 w).read .estg0 = w &&& 0x0F77 := by
  have named : (field w 1 2).toNat = lineIndex line := (lineField_toNat w).trans h
  have index : placeNat (lineIndex line) 2 1 = place (field w 1 2) 1 := by rw [placeNat, ← named, BitVec.ofNat_toNat, BitVec.setWidth_eq]
  simp only [Staging.write, Staging.read, lineOfCode_eq_of_toNat named, index, delayModeBit_ofBit, placeBit_bit, place_field,
    ← BitVec.and_or_distrib_left]
  rfl

theorem Staging.read_write_estg1 (g : Staging) (w : Word) : (g.write .estg1 w).read .estg1 = w &&& 0xFF3F := by
  simp only [Staging.write, Staging.read, place_field, ← BitVec.and_or_distrib_left]
  rfl

theorem exec_stagingWrite_eq (word : StagingWord) (value : Word) (s : State) : exec (.stagingWrite word value) s =
    s.accept { s with schedule := { s.schedule with staging := s.schedule.staging.write word value } } := by rfl

theorem exec_readShadow_eq (index : BitVec 4) (s : State) : exec (.readShadow index) s =
    s.accept { s with schedule := s.schedule.load 0 s.schedule.active.other index } := by rfl

theorem exec_readActive_eq (index : BitVec 4) (s : State) : exec (.readActive index) s =
    s.accept { s with schedule := s.schedule.load 1 s.schedule.active index } := by rfl

theorem namesEntry_iff (index : BitVec 4) : namesEntry index = true ↔ index.toNat < 12 := by
  simp only [namesEntry, decide_eq_true_eq]

theorem Schedule.load_of_named {index : BitVec 4} (h : index.toNat < 12) (c : Schedule) (operation : BitVec 3) (bank : Bank) :
    c.load operation bank index =
      { c with
        staging := Staging.ofEntry ((c.entries bank).getD index.toNat Entry.cleared)
        index := index, operation := operation, entryResult := .done } := if_pos ((namesEntry_iff index).mpr h)

theorem Schedule.load_of_unnamed {index : BitVec 4} (h : 12 ≤ index.toNat) (c : Schedule) (operation : BitVec 3) (bank : Bank) :
    c.load operation bank index = { c with index := index, operation := operation, entryResult := .arg } :=
  if_neg (mt (namesEntry_iff index).mp (Nat.not_lt.mpr h))

theorem Entry.inRange_iff (e : Entry) : e.inRange = true ↔
    e.exponent ≤ 6 ∧ e.phase < 2 ^ e.exponent ∧ 1 ≤ e.width ∧ e.width ≤ 65535 ∧ e.delay ≤ 16777215 ∧
      (e.mode = .fraction → e.delay ≤ 4095) := by
  cases h : e.mode <;> simp only [Entry.inRange, h, Bool.and_eq_true, decide_eq_true_eq] <;> grind

theorem actionOfCode_actionCode (a : Action) : actionOfCode (actionCode a) = some a := by cases a <;> rfl

/-- The delay of a loaded entry: its two parts hold all of 24 bits. -/
theorem Staging.ofEntry_delay {e : Entry} (h : e.delay ≤ 16777215) : (Staging.ofEntry e).delay = e.delay := by
  have whole : (Staging.ofEntry e).delayHigh ++ (Staging.ofEntry e).delayLow = BitVec.ofNat 24 e.delay := by
    exact BitVec.extractLsb'_append_extractLsb' ..
  rw [Staging.delay, whole, BitVec.toNat_ofNat]
  omega

/-- The entry the staging holds, given its action. -/
def Staging.entryWith (g : Staging) (action : Action) : Entry where
  enabled := g.enabled
  line := g.line
  action := action
  exponent := g.exponent.toNat
  phase := g.phase.toNat
  mode := g.mode
  delay := g.delay
  width := g.width.toNat

theorem Staging.toEntry_of_action {g : Staging} {action : Action} (h : actionOfCode g.action = some action) :
    g.toEntry = if (g.entryWith action).inRange then some (g.entryWith action) else none := by
  simp only [Staging.toEntry, h]
  rfl

theorem Staging.toEntry_of_no_action {g : Staging} (h : actionOfCode g.action = none) : g.toEntry = none := by
  simp only [Staging.toEntry, h]

theorem Staging.entryWith_ofEntry {e : Entry} (h : e.inRange = true) : (Staging.ofEntry e).entryWith e.action = e := by
  obtain ⟨exponent, phase, -, width, delay, -⟩ := e.inRange_iff.mp h
  have phase_lt : e.phase < 64 := phase.trans_le (Nat.pow_le_pow_right (by decide) exponent)
  rw [Staging.entryWith, Staging.ofEntry_delay delay]
  simp only [Staging.ofEntry, BitVec.toNat_ofNat]
  rw [Nat.mod_eq_of_lt (by omega : e.exponent < 2 ^ 3), Nat.mod_eq_of_lt phase_lt, Nat.mod_eq_of_lt (by omega : e.width < 2 ^ 16)]

/-- R117, R119: an entry in range loses nothing in the staging. -/
theorem Staging.toEntry_ofEntry {e : Entry} (h : e.inRange = true) : (Staging.ofEntry e).toEntry = some e := by
  rw [Staging.toEntry_of_action (g := Staging.ofEntry e) (actionOfCode_actionCode e.action), Staging.entryWith_ofEntry h, if_pos h]

/-- Settles O39: the four staging words written and read back, and the two loads. -/
theorem entryWindowLoadsTheStagingWhole : Obligations.EntryWindowLoadsTheStagingWhole := by
  refine ⟨fun index s released => ?_, fun e => Staging.toEntry_ofEntry⟩
  have written (word : StagingWord) (value : Word) := exec_next_of_accept released (exec_stagingWrite_eq word value s)
  have shadow := exec_next_of_accept released (exec_readShadow_eq index s)
  have active := exec_next_of_accept released (exec_readActive_eq index s)
  refine ⟨fun value line t h ht => ?_, fun value t ht => ?_, fun value t ht => ?_, fun value t ht => ?_, fun named => ?_, fun named => ?_,
    fun unnamed => ?_, fun unnamed => ?_⟩
  · have stored : s.schedule.staging.write .estg0 value =
        { s.schedule.staging with
          enabled := value.getLsbD 0, line := line, action := value.extractLsb' 4 3, exponent := value.extractLsb' 8 3,
          mode := if value.getLsbD 11 = true then .fraction else .ticks } := by
      rw [Staging.write, lineOfCode_eq_of_toNat ((lineField_toNat value).trans h), delayModeOfBit_eq]
      rfl
    rw [written, ht, stored]
    exact ⟨rfl, by rw [← s.schedule.staging.read_write_estg0 value h, stored]; rfl⟩
  · exact ht ▸ ⟨written .estg1 value, s.schedule.staging.read_write_estg1 value⟩
  · exact ht ▸ ⟨written .estg2 value, rfl⟩
  · exact ht ▸ ⟨written .estg3 value, rfl⟩
  · rw [shadow, Schedule.load_of_named named]
  · rw [active, Schedule.load_of_named named]
  · rw [shadow, Schedule.load_of_unnamed unnamed]
  · rw [active, Schedule.load_of_unnamed unnamed]

/-! ## The entry write -/

theorem exec_write_eq (index : BitVec 4) (s : State) : exec (.write index) s =
    s.accept { s with schedule := s.schedule.writeEntry index } := by rfl

theorem actionOfCode_eq_none_iff (code : BitVec 3) : actionOfCode code = none ↔ 4 < code.toNat := by
  revert code
  decide

/-- R120: the third check, on the fields of the staging. -/
theorem Staging.entryWith_inRange_iff (g : Staging) (action : Action) : (g.entryWith action).inRange = true ↔
    ¬(6 < g.exponent.toNat ∨ 2 ^ g.exponent.toNat ≤ g.phase.toNat ∨ g.width = 0 ∨ (g.mode = .fraction ∧ 4095 < g.delay)) := by
  have width : g.width = 0 ↔ g.width.toNat = 0 := by rw [BitVec.toNat_eq]; rfl
  have width_lt : g.width.toNat < 65536 := g.width.isLt
  have delay_lt : g.delay < 16777216 := (g.delayHigh ++ g.delayLow).isLt
  rw [Entry.inRange_iff, width]
  simp only [Staging.entryWith]
  constructor
  · rintro ⟨exponent, phase, positive, -, -, fraction⟩ (h | h | h | ⟨mode, h⟩)
    · omega
    · omega
    · omega
    · have := fraction mode
      omega
  · intro h
    simp only [not_or, not_and, Nat.not_lt, Nat.not_le] at h
    obtain ⟨exponent, phase, positive, fraction⟩ := h
    exact ⟨exponent, phase, by omega, by omega, by omega, fraction⟩

section
variable {c : Schedule} {index : BitVec 4}

theorem Schedule.writeEntry_of_unnamed (h : 12 ≤ index.toNat) : c.writeEntry index = c.report 2 index .arg := by
  have unnamed : namesEntry index = false := Bool.eq_false_iff.mpr (mt (namesEntry_iff index).mp (Nat.not_lt.mpr h))
  simp only [Schedule.writeEntry, unnamed, Bool.not_false, if_true]

theorem Schedule.writeEntry_of_pending (h : index.toNat < 12) (pending : c.commit = .pending) :
    c.writeEntry index = c.report 2 index .busy := by
  simp only [Schedule.writeEntry, (namesEntry_iff index).mpr h, Bool.not_true, Bool.false_eq_true, if_false, pending, if_true]

theorem Schedule.writeEntry_of_none (h : index.toNat < 12) (idle : c.commit ≠ .pending) (none : c.staging.toEntry = none) :
    c.writeEntry index = c.report 2 index .arg := by
  simp only [Schedule.writeEntry, (namesEntry_iff index).mpr h, Bool.not_true, Bool.false_eq_true, if_false, if_neg idle, none]

theorem Schedule.writeEntry_of_some (h : index.toNat < 12) (idle : c.commit ≠ .pending) {e : Entry} (some : c.staging.toEntry = some e) :
    c.writeEntry index = (c.setEntries c.shadow ((c.entries c.shadow).set index.toNat e)).report 2 index .done := by
  simp only [Schedule.writeEntry, (namesEntry_iff index).mpr h, Bool.not_true, Bool.false_eq_true, if_false, if_neg idle, some]

end

/-- Settles O40: the index, a waiting commit, the ranges, and the copy. -/
theorem entryWriteChecksInOrder : Obligations.EntryWriteChecksInOrder := by
  intro index s g bad released hg hbad
  have written := exec_next_of_accept released (exec_write_eq index s)
  refine ⟨fun unnamed => ?_, fun named pending => ?_, fun named idle refused => ?_, fun action named idle taken code => ?_⟩
  · rw [written, Schedule.writeEntry_of_unnamed unnamed]
    rfl
  · rw [written, Schedule.writeEntry_of_pending named pending]
    rfl
  · have none : s.schedule.staging.toEntry = none := by
      rw [← hg]
      cases code : actionOfCode g.action with
      | none => exact Staging.toEntry_of_no_action code
      | some action =>
        have known : ¬ 4 < g.action.toNat := mt (actionOfCode_eq_none_iff g.action).mpr (by rw [code]; nofun)
        rw [Staging.toEntry_of_action code, if_neg]
        rw [Staging.entryWith_inRange_iff, not_not]
        rw [hbad] at refused
        tauto
    rw [written, Schedule.writeEntry_of_none named idle none]
    rfl
  · have entry : s.schedule.staging.toEntry = some (g.entryWith action) := by
      rw [← hg, Staging.toEntry_of_action code, if_pos]
      rw [Staging.entryWith_inRange_iff]
      rw [hbad] at taken
      tauto
    rw [written, Schedule.writeEntry_of_some named idle entry]
    rfl

/-! ## The armed head and OUTCFG -/

theorem exec_armedActionExpiry_of_cons {s : State} {x : ArmedAction} {rest : List ArmedAction} (h : s.armed = x :: rest) :
    exec .armedActionExpiry s = s.accept (if s.inRun && x.isDue s.now then s.expireArmed x rest else s) := by
  have : exec .armedActionExpiry s = execArmedActionExpiry s := by rfl
  rw [this]
  simp only [execArmedActionExpiry, h]

theorem exec_armedActionExpiry_of_nil {s : State} (h : s.armed = []) : exec .armedActionExpiry s = .next s := by
  have : exec .armedActionExpiry s = execArmedActionExpiry s := by rfl
  rw [this]
  simp only [execArmedActionExpiry, h, State.accept_self]

theorem ArmedAction.continues_iff (x : ArmedAction) : x.continues = true ↔ x.action.isPulse = true ∧ x.phase = .leading := by
  simp only [ArmedAction.continues, Bool.and_eq_true, decide_eq_true_eq]

/-- Settles O43: the head due, the head not due, and no head or no run. -/
theorem armedHeadExpiresWhenDue : Obligations.ArmedHeadExpiresWhenDue := by
  refine fun s o => ⟨fun x rest released run armed due ho => ?_, fun x rest armed isLater => ?_, fun idle => ?_⟩
  · have test : (s.inRun && x.isDue s.now) = true := Bool.and_eq_true_iff.mpr ⟨s.inRun_eq_true_iff.mpr run, due⟩
    have expired : exec .armedActionExpiry s =
        .next { s with output := o, armed := if x.continues then insertArmed s.tracker.anchorCount x.trailing rest else rest } := by
      refine exec_next_of_accept released ?_
      rw [exec_armedActionExpiry_of_cons armed, if_pos test, State.expireArmed_eq, ho]
    refine ⟨fun pulse leading => ?_, fun ends => ?_⟩
    · rw [expired, if_pos (x.continues_iff.mpr ⟨pulse, leading⟩)]
      rfl
    · have last : ¬ x.continues = true := by
        rw [x.continues_iff]
        rintro ⟨pulse, leading⟩
        rcases ends with level | trailing
        · exact Bool.false_ne_true (level.symm.trans pulse)
        · nomatch leading.symm.trans trailing
      rw [expired, if_neg last]
  · have test : ¬ (s.inRun && x.isDue s.now) = true := fun h => not_notLater_of_later isLater (Bool.and_eq_true_iff.mp h).2
    rw [exec_armedActionExpiry_of_cons armed, if_neg test, State.accept_self]
  · cases armed : s.armed with
    | nil => exact exec_armedActionExpiry_of_nil armed
    | cons x rest =>
      have config : s.inRun = false := s.inRun_eq_false_iff.mpr (idle.resolve_left (by rw [armed]; nofun))
      rw [exec_armedActionExpiry_of_cons armed, config, Bool.false_and, if_neg Bool.false_ne_true, State.accept_self]

theorem linesField_get (w : Word) (lo : Nat) (line : Line) : (linesField w lo).get line = w.getLsbD (lo + lineIndex line) :=
  Lines.get_build _ line

/-- Settles O45: the output as written, and what a pin shows of it. -/
theorem outcfgWriteAndThePins : Obligations.OutcfgWriteAndThePins := by
  refine fun value s released => ⟨{ s.output with enable := linesField value 0, safe := linesField value 4 },
    exec_next_of_accept released rfl, rfl, fun line => ?_, fun line => linesField_get value 4 line, fun line enabled => if_pos enabled,
    fun line disabled => if_neg (Bool.eq_false_iff.mp disabled)⟩
  exact (linesField_get value 0 line).trans (by rw [Nat.zero_add])

end Sys2Proof.Machine
end

section
/-! PROOF. Run control: START, SOFT RESET, the lane commands and the statistics commands (R76 to R79, R158 to R166, R179, R181). -/

namespace Sys2Proof.Machine

/-! ## START -/

theorem exec_start_eq (arg : BitVec 8) (s : State) : exec (.start arg) s =
    if s.inRun then s.accept (s.answer 0x01 .state)
    else if s.startError = 0 then s.accept (s.startRun.answer 0x01 .done)
    else s.accept (s.answer 0x01 .arg s.startError) := by rfl

theorem exec_start_of_error {s : State} (config : s.inRun = false) {k : Nat} (error : s.startError = k) (h : k ≠ 0) (arg : BitVec 8) :
    exec (.start arg) s = s.accept (s.answer 0x01 .arg k) := by
  rw [exec_start_eq, config, if_neg Bool.false_ne_true, error, if_neg h]

/-- R158: the first check. -/
theorem State.noLaneEnabled_iff (s : State) : (!s.someLaneEnabled) = true ↔ ∀ l, (s.laneConfig.get l).enable = false := by
  rw [Bool.not_eq_true', Bool.eq_false_iff, Ne, State.someLaneEnabled, Lane.any_iff]
  simp only [not_exists, Bool.not_eq_true]

/-- R158: the third check. -/
theorem Limits.not_inRange_iff (l : Limits) :
    (!l.inRange) = true ↔ l.lower = 0 ∨ l.upper.toNat ≤ l.lower.toNat ∨ 2 ^ 28 ≤ l.upper.toNat := by
  have lower : l.lower = 0 ↔ l.lower.toNat = 0 := by rw [BitVec.toNat_eq]; rfl
  rw [Bool.not_eq_true', Bool.eq_false_iff, Ne, Limits.inRange_iff, lower]
  omega

/-- R158: the fourth check. -/
theorem not_timeoutInRange_iff (timeout : Time) (w d : Nat) :
    (!timeoutInRange timeout w d) = true ↔ timeout.toNat ≤ 2 * (w + d) ∨ 2 ^ 30 ≤ timeout.toNat := by
  rw [Bool.not_eq_true', Bool.eq_false_iff, Ne, timeoutInRange_iff]
  omega

/-- Settles O46: each check, with the checks before it passed. -/
theorem startReportsTheFirstFailingCheck : Obligations.StartReportsTheFirstFailingCheck := by
  intro arg s refusedState refused w d c1 c2 c3 c4 c5 c6 released hw hd h1 h2 h3 h4 h5 h6 hstate hrefused
  have e1 : (!s.someLaneEnabled) = true ↔ c1 := by rw [h1, State.noLaneEnabled_iff]
  have e2 : s.table.window = 0 ↔ c2 := by rw [h2, hw]
  have e3 : (!s.limits.inRange) = true ↔ c3 := by rw [h3, Limits.not_inRange_iff]
  have e4 : (!timeoutInRange s.limits.timeout s.table.window (settleAllowance s.laneConfig)) = true ↔ c4 := by
    rw [h4, not_timeoutInRange_iff, hw, hd, settleAllowance]
  have e5 : s.healthConfig.exclude < s.healthConfig.suspect ↔ c5 := by rw [h5]
  have e6 : s.table.window < s.vote.tolerance ↔ c6 := by rw [h6, hw]
  refine ⟨fun run => ?_, fun config => ?_⟩
  · rw [hstate]
    refine exec_next_of_accept released ?_
    rw [exec_start_eq, if_pos (s.inRun_eq_true_iff.mpr run)]
    rfl
  · have answered {k : Nat} (error : s.startError = k) (h : k ≠ 0) : exec (.start arg) s = .next (refused k) := by
      rw [hrefused]
      exact exec_next_of_accept released (exec_start_of_error (s.inRun_eq_false_iff.mpr config) error h arg)
    refine ⟨fun f1 => answered ?_ (by decide), fun p1 f2 => answered ?_ (by decide), fun p1 p2 f3 => answered ?_ (by decide),
      fun p1 p2 p3 f4 => answered ?_ (by decide), fun p1 p2 p3 p4 f5 => answered ?_ (by decide),
      fun p1 p2 p3 p4 p5 f6 => answered ?_ (by decide)⟩
    · rw [State.startError, if_pos (e1.mpr f1)]
    · rw [State.startError, if_neg (mt e1.mp p1), if_pos (e2.mpr f2)]
    · rw [State.startError, if_neg (mt e1.mp p1), if_neg (mt e2.mp p2), if_pos (e3.mpr f3)]
    · rw [State.startError, if_neg (mt e1.mp p1), if_neg (mt e2.mp p2), if_neg (mt e3.mp p3), if_pos (e4.mpr f4)]
    · rw [State.startError, if_neg (mt e1.mp p1), if_neg (mt e2.mp p2), if_neg (mt e3.mp p3), if_neg (mt e4.mp p4),
        if_pos (e5.mpr f5)]
    · rw [State.startError, if_neg (mt e1.mp p1), if_neg (mt e2.mp p2), if_neg (mt e3.mp p3), if_neg (mt e4.mp p4),
        if_neg (mt e5.mp p5), if_pos (e6.mpr f6)]

/-- Settles O47: the six checks pass, and the run is set up. -/
theorem startSetsUpTheRun : Obligations.StartSetsUpTheRun := by
  intro arg s d released config hd enabled window lower upper bound timeoutLow timeoutHigh levels tolerance
  have checks : s.startError = 0 := by
    refine s.startError_eq_zero_iff.mpr ⟨(Lane.any_iff _).mpr enabled, window, (Limits.inRange_iff _).mpr ⟨lower, upper, bound⟩,
      (timeoutInRange_iff _ _ _).mpr ⟨?_, timeoutHigh⟩, levels, tolerance⟩
    rw [hd] at timeoutLow
    exact timeoutLow
  refine exec_next_of_accept released ?_
  rw [exec_start_eq, s.inRun_eq_false_iff.mpr config, if_neg Bool.false_ne_true, if_pos checks, State.startRun_eq, hd]
  rfl

/-! ## SOFT RESET and the statistics commands -/

/-- Settles O49: every part SOFT RESET writes. -/
theorem softResetKeepsTheConfiguration : Obligations.SoftResetKeepsTheConfiguration := by
  intro arg s released
  have reset : exec (.softReset arg) s = s.accept s.softReset := by rfl
  rw [exec_next_of_accept released reset, State.softReset_eq]
  rfl

/-- Settles O57: the two statistics commands. -/
theorem snapshotCopiesAndClearZeroes : Obligations.SnapshotCopiesAndClearZeroes :=
  fun _ _ released => ⟨exec_next_of_accept released rfl, exec_next_of_accept released rfl⟩

/-! ## The lane commands -/

theorem laneField_toNat (arg : BitVec 8) : (arg.extractLsb' 0 2).toNat = arg.toNat % 4 := by
  rw [BitVec.extractLsb'_toNat, Nat.shiftRight_zero]

theorem laneOfArg_eq_none {arg : BitVec 8} (h : arg.toNat % 4 = 3) : laneOfArg arg = none := by
  simp only [laneOfArg, laneOfCode, laneField_toNat, h]

theorem laneOfArg_eq_some {arg : BitVec 8} {lane : Lane} (h : arg.toNat % 4 = (laneCode lane).toNat) : laneOfArg arg = some lane := by
  cases lane <;> simp only [laneOfArg, laneOfCode, laneField_toNat, h] <;> rfl

section
variable {arg : BitVec 8} {s : State} {lane : Lane}

theorem exec_laneEnable_of_no_lane (h : laneOfArg arg = none) : exec (.laneEnable arg) s = s.accept (s.answer 0x08 .arg) := by
  have : exec (.laneEnable arg) s = execLaneEnable arg s := by rfl
  rw [this]
  simp only [execLaneEnable, h]

theorem exec_laneEnable_of_lane (h : laneOfArg arg = some lane) : exec (.laneEnable arg) s =
    if !s.inRun then s.accept ((s.setLaneEnable lane true).answer 0x08 .done)
    else if (s.health.get lane).state = .off then s.accept ((s.enableLane lane).answer 0x08 .done)
    else s.accept (s.answer 0x08 .state) := by
  have : exec (.laneEnable arg) s = execLaneEnable arg s := by rfl
  rw [this]
  simp only [execLaneEnable, h]

theorem exec_laneReadmit_of_no_lane (h : laneOfArg arg = none) : exec (.laneReadmit arg) s = s.accept (s.answer 0x0A .arg) := by
  have : exec (.laneReadmit arg) s = execLaneReadmit arg s := by rfl
  rw [this]
  simp only [execLaneReadmit, h]

theorem exec_laneReadmit_of_lane (h : laneOfArg arg = some lane) : exec (.laneReadmit arg) s =
    if s.inRun && (s.health.get lane).state = .excluded then s.accept ((s.commandLane lane .probation .readmit).answer 0x0A .done)
    else s.accept (s.answer 0x0A .state) := by
  have : exec (.laneReadmit arg) s = execLaneReadmit arg s := by rfl
  rw [this]
  simp only [execLaneReadmit, h]

theorem exec_laneDisable_of_no_lane (h : laneOfArg arg = none) : exec (.laneDisable arg) s = s.accept (s.answer 0x09 .arg) := by
  have : exec (.laneDisable arg) s = execLaneDisable arg s := by rfl
  rw [this]
  simp only [execLaneDisable, h]

theorem exec_laneDisable_of_lane (h : laneOfArg arg = some lane) : exec (.laneDisable arg) s =
    if !s.inRun then s.accept ((s.setLaneEnable lane false).answer 0x09 .done)
    else if s.mayDisable lane then s.accept ((s.disableLane lane).answer 0x09 .done)
    else s.accept (s.answer 0x09 .state) := by
  have : exec (.laneDisable arg) s = execLaneDisable arg s := by rfl
  rw [this]
  simp only [execLaneDisable, h]

end

/-- Settles O50: LANE ENABLE and LANE READMIT, each by the argument, the part state and the lane's state. -/
theorem laneEnableAndReadmitPutALaneOnProbation : Obligations.LaneEnableAndReadmitPutALaneOnProbation := by
  refine ⟨fun arg s answered released hanswered => ?_, fun arg s answered released hanswered => ?_⟩
  · refine ⟨fun code => ?_, fun lane code config => ?_, fun lane code run off => ?_, fun lane code run on => ?_⟩ <;>
      rw [hanswered] <;> refine exec_next_of_accept released ?_
    · exact exec_laneEnable_of_no_lane (laneOfArg_eq_none code)
    · rw [exec_laneEnable_of_lane (laneOfArg_eq_some code), s.inRun_eq_false_iff.mpr config, Bool.not_false, if_pos rfl]
      rfl
    · rw [exec_laneEnable_of_lane (laneOfArg_eq_some code), s.inRun_eq_true_iff.mpr run, Bool.not_true, if_neg Bool.false_ne_true,
        if_pos off, State.enableLane_eq, off]
      rfl
    · rw [exec_laneEnable_of_lane (laneOfArg_eq_some code), s.inRun_eq_true_iff.mpr run, Bool.not_true, if_neg Bool.false_ne_true,
        if_neg on]
      rfl
  · refine ⟨fun code => ?_, fun lane code run excluded => ?_, fun lane code h => ?_⟩ <;>
      rw [hanswered] <;> refine exec_next_of_accept released ?_
    · exact exec_laneReadmit_of_no_lane (laneOfArg_eq_none code)
    · have test : (s.inRun && (s.health.get lane).state = .excluded) = true :=
        Bool.and_eq_true_iff.mpr ⟨s.inRun_eq_true_iff.mpr run, decide_eq_true excluded⟩
      rw [exec_laneReadmit_of_lane (laneOfArg_eq_some code), if_pos test, State.commandLane_eq, excluded]
      rfl
    · have test : ¬ (s.inRun && (s.health.get lane).state = .excluded) = true := by
        rw [Bool.and_eq_true_iff, decide_eq_true_eq, State.inRun_eq_true_iff]
        rintro ⟨run, excluded⟩
        rcases h with config | other
        · nomatch config.symm.trans run
        · exact other excluded
      rw [exec_laneReadmit_of_lane (laneOfArg_eq_some code), if_neg test]
      rfl

theorem State.otherVotes_iff (s : State) (lane : Lane) :
    s.otherVotes lane = true ↔ ∃ l, l ≠ lane ∧ (s.health.get l).state.votes = true := by
  simp only [State.otherVotes, Lane.any_iff, Bool.and_eq_true, decide_eq_true_eq]

/-- R78: what LANE DISABLE asks of a lane in RUN. -/
theorem State.mayDisable_iff (s : State) (lane : Lane) : s.mayDisable lane = true ↔
    (s.health.get lane).state.observes = true ∨
      ((s.health.get lane).state.votes = true ∧ ∃ l, l ≠ lane ∧ (s.health.get l).state.votes = true) := by
  rw [← State.otherVotes_iff, State.mayDisable]
  cases (s.health.get lane).state <;> simp [LaneState.observes, LaneState.votes]

/-- Settles O51: LANE DISABLE by the argument, the part state and the voters. -/
theorem laneDisableSparesTheLastVoter : Obligations.LaneDisableSparesTheLastVoter := by
  intro arg s answered released hanswered
  refine ⟨fun code => ?_, fun lane code config => ?_, fun lane code run spared => ?_, fun lane u code run may hu => ?_⟩ <;>
    rw [hanswered] <;> refine exec_next_of_accept released ?_
  · exact exec_laneDisable_of_no_lane (laneOfArg_eq_none code)
  · rw [exec_laneDisable_of_lane (laneOfArg_eq_some code), s.inRun_eq_false_iff.mpr config, Bool.not_false, if_pos rfl]
    rfl
  · have kept : ¬ s.mayDisable lane = true := by
      rw [State.mayDisable_iff]
      rcases spared with off | ⟨votes, alone⟩
      · rw [off]
        rintro (h | ⟨h, -⟩) <;> nomatch h
      · rintro (observes | ⟨-, l, other, h⟩)
        · exact Bool.false_ne_true ((LaneState.votes_of_observes observes).symm.trans votes)
        · exact Bool.false_ne_true ((alone l other).symm.trans h)
    rw [exec_laneDisable_of_lane (laneOfArg_eq_some code), s.inRun_eq_true_iff.mpr run, Bool.not_true, if_neg Bool.false_ne_true,
      if_neg kept]
    rfl
  · rw [exec_laneDisable_of_lane (laneOfArg_eq_some code), s.inRun_eq_true_iff.mpr run, Bool.not_true, if_neg Bool.false_ne_true,
      if_pos ((s.mayDisable_iff lane).mpr may)]
    have disabled : s.disableLane lane = (u.table.groups.filter fun g => g.complete u.laneStates).foldl
        (fun t g => t.closeGroup .complete g)
        { u with table := { u.table with groups := u.table.groups.filter fun g => !g.complete u.laneStates } } := by
      rw [State.disableLane_eq, hu, State.closeComplete, State.closeGroups_eq_foldl]
      rfl
    have command : (s.disableLane lane).command = s.command := by rw [State.disableLane_eq, State.closeComplete_command]
    rw [← disabled, ← command]
    rfl

end Sys2Proof.Machine
end

section
/-! PROOF. STOP: a group closed STOPPED reaches the number, the queue and the OVERRUN flag alone, and the run ends (R36, R55, R162,
R163). -/

namespace Sys2Proof.Machine

/-! ## An assessment that finds nothing -/

theorem passOne_neutral (c : HealthConfig) (h : HealthRecord) : passOne c .neutral h = h := by
  cases state : h.state <;> simp only [passOne, state, passOneVoting, passOneProbation, passOneExcluded, if_true]

/-- R71, R72: pass 2 leaves lanes that are marked as they should be, with no voting lane over the limit but the only one. -/
theorem passTwo_eq_self {te : Nat} {hs : Lanes HealthRecord}
    (marked : ∀ l, (hs.get l).mark = true → (hs.get l).overLimit te = true)
    (lastVoter : ∀ l, (hs.get l).overLimit te = true → (hs.get l).mark = true ∧ ∀ l', l' ≠ l → (hs.get l').state.votes = false) :
    passTwo te hs = hs := by
  refine Lanes.ext fun l => ?_
  by_cases above : (hs.get l).overLimit te = true
  · obtain ⟨mark, alone⟩ := lastVoter l above
    obtain ⟨votes, limit⟩ := (HealthRecord.overLimit_iff te _).mp above
    have others (j : Lane) (hj : (hs.get j).state.votes = true) : j = l :=
      Decidable.byContradiction fun other => Bool.false_ne_true ((alone j other).symm.trans hj)
    have kept : keptLane te hs = some l := by
      rw [keptLane_eq_keeper fun j hj => others j hj ▸ limit]
      exact keeper_eq_some votes fun j hj other => absurd (others j hj) other
    rw [passTwo_get_of_kept above kept, ← mark]
  · have unmarked : (hs.get l).mark = false := Bool.eq_false_iff.mpr (mt (marked l) above)
    rw [passTwo_get_of_not_overLimit above, ← unmarked]

/-- Health records that a group with no charge leaves as they are. -/
def Settled (c : HealthConfig) (hs : Lanes HealthRecord) : Prop := passTwo c.exclude hs = hs

theorem HealthInv.settled {s : State} (h : HealthInv s) : Settled s.healthConfig s.health :=
  passTwo_eq_self (fun l => (h.lanes l).mark) h.lastVoter

theorem Settled.assessLanes {c : HealthConfig} {hs : Lanes HealthRecord} (h : Settled c hs) {as : Lanes Assessment}
    (neutral : ∀ l, as.get l = .neutral) : assessLanes c as hs = hs := by
  have passed : (Lanes.build fun l => passOne c (as.get l) (hs.get l)) = hs :=
    Lanes.ext fun l => by rw [Lanes.get_build, neutral, passOne_neutral]
  rw [Machine.assessLanes, passed]
  exact h

theorem State.assess_of_neutral {s : State} (h : Settled s.healthConfig s.health) {r : VoteResult}
    (neutral : ∀ l, r.assessments.get l = .neutral) : s.assess r = s := by
  have same (l : Lane) : s.reportAssessed r.seq (s.health.get l).state l = s := if_pos rfl
  have kept : s.setHealth s.health = s := rfl
  rw [State.assess, h.assessLanes neutral, kept]
  exact (congrArg₂ (fun u v => State.reportAssessed u r.seq v .c) (congrArg (State.reportAssessed · r.seq _ .b) (same .a)) rfl).trans
    ((congrArg (State.reportAssessed · r.seq _ .c) (same .b)).trans (same .c))

/-! ## A group closed STOPPED -/

theorem State.count_self (s : State) {f : Counters → Counters} (h : f s.stats.live = s.stats.live) : s.count f = s := by
  rw [State.count, h]
  rfl

theorem Counters.charge_of_neutral (c : Counters) {r : VoteResult} (neutral : ∀ l, r.assessments.get l = .neutral) :
    c.charge r = c := by
  have lanes : (Lanes.build fun l => (c.lanes.get l).charge (r.assessments.get l)) = c.lanes :=
    Lanes.ext fun l => by rw [Lanes.get_build, neutral, LaneCounters.charge]
  rw [Counters.charge, lanes]

theorem Counters.countClass_of_stopped (c : Counters) {r : VoteResult} (stopped : r.reason = .stopped) : c.countClass r = c := by
  simp only [Counters.countClass, stopped]

/-- R36, R55, R83: a STOPPED group is numbered and its GROUP record offered, and nothing else is done. -/
theorem State.closeGroup_stopped {s : State} (h : Settled s.healthConfig s.health) (g : OpenGroup) :
    ∃ body, s.closeGroup .stopped g = State.offer { s with table := { s.table with seq := s.table.seq + 1 } } body := by
  generalize hu : ({ s with table := { s.table with seq := s.table.seq + 1 } } : State) = u
  generalize hr : s.voteOn { seq := s.table.seq, reason := .stopped, reference := g.reference, members := g.members } = r
  have stopped : r.reason = .stopped := hr ▸ rfl
  have neutral (l : Lane) : r.assessments.get l = .neutral := by
    rw [← hr]
    exact (Lanes.get_build _ l).trans (Ballot.assess_of_stopped _ l)
  have numbered : s.takeNumber .stopped = u := hu ▸ State.count_self _ rfl
  have settled : Settled u.healthConfig u.health := hu ▸ h
  have counted : u.countVote r = u := State.count_self _ (by rw [u.stats.live.countClass_of_stopped stopped,
    u.stats.live.charge_of_neutral neutral])
  refine ⟨r.record .untested, ?_⟩
  rw [State.closeGroup, numbered, hr, State.handOn, counted, State.assess_of_neutral settled neutral,
    State.track_of_unvoted (.inl stopped)]

/-- R35, R36: so do several of them. -/
theorem State.closeGroups_stopped (gs : List OpenGroup) : ∀ {s : State}, Settled s.healthConfig s.health →
    ∃ q o, gs.foldl (fun t g => t.closeGroup .stopped g) s =
      { s with
        table := { s.table with seq := s.table.seq + BitVec.ofNat 16 gs.length }
        queue := q
        interrupt := { s.interrupt with flags := { s.interrupt.flags with overrun := o } } } := by
  induction gs with
  | nil => exact fun {s} _ => ⟨s.queue, s.interrupt.flags.overrun, by rw [List.length_nil, BitVec.add_zero]; rfl⟩
  | cons g rest ih =>
    intro s h
    obtain ⟨body, closed⟩ := State.closeGroup_stopped h g
    rw [State.offer_eq] at closed
    have settled : Settled (s.closeGroup .stopped g).healthConfig (s.closeGroup .stopped g).health := closed ▸ h
    obtain ⟨q, o, folded⟩ := ih settled
    have number : s.table.seq + 1 + BitVec.ofNat 16 rest.length = s.table.seq + BitVec.ofNat 16 (g :: rest).length := by
      rw [List.length_cons, BitVec.ofNat_add, BitVec.add_assoc]
      exact congrArg (s.table.seq + ·) (BitVec.add_comm _ _)
    refine ⟨q, o, ?_⟩
    rw [List.foldl_cons, folded, closed, ← number]

/-! ## STOP -/

theorem exec_stop_eq (arg : BitVec 8) (s : State) : exec (.stop arg) s =
    if s.inRun then s.accept (s.stopRun.answer 0x02 .done) else s.accept (s.answer 0x02 .state) := by rfl

theorem Schedule.withdraw_eq (c : Schedule) :
    c.withdraw = { c with commit := if c.commit = .pending then .cancelled else c.commit } := by
  unfold Schedule.withdraw
  split <;> rfl

/-- Settles O48: the refusal in CONFIG, and the steps of STOP on what the closes leave. -/
theorem stopEndsTheRunInOrder : Obligations.StopEndsTheRunInOrder := by
  refine fun arg s released => ⟨fun config => ?_, fun u run health hu => ?_⟩
  · refine exec_next_of_accept released ?_
    rw [exec_stop_eq, s.inRun_eq_false_iff.mpr config, if_neg Bool.false_ne_true]
    rfl
  · obtain ⟨v, hv, stopped⟩ := s.stopRun_shape
    obtain ⟨q, o, folded⟩ := State.closeGroups_stopped s.table.groups
      (s := { s with table := { s.table with groups := [] } }) health.settled
    have closed : v = u := by
      rw [hv, hu, State.stopGroups, State.closeGroups_eq_foldl]
      rfl
    refine exec_next_of_accept released ?_
    rw [exec_stop_eq, if_pos (s.inRun_eq_true_iff.mpr run), stopped, closed, hu, folded, Schedule.withdraw_eq]
    rfl

end Sys2Proof.Machine
end

section
/-! PROOF. The CONFIG-only registers, the flag registers and IRQ (R3, R14, R21, R49, R63 to R65, R114, R122, R169 to R176, R190). -/

namespace Sys2Proof.Machine

/-! ## The CONFIG-only registers -/

section
variable {s t : State} {c : Instr}

theorem exec_configOnly_of_run (released : s.resetAsserted = false) (run : s.command.partState = .run)
    (h : exec c s = s.accept (s.configOnly t)) : exec c s = .next s.busState := by
  rw [exec_next_of_accept released h, State.configOnly, if_pos (s.inRun_eq_true_iff.mpr run)]

theorem exec_configOnly_of_config (released : s.resetAsserted = false) (config : s.command.partState = .config)
    (h : exec c s = s.accept (s.configOnly t)) : exec c s = .next t := by
  rw [exec_next_of_accept released h, State.configOnly, s.inRun_eq_false_iff.mpr config, if_neg Bool.false_ne_true]

end

section
variable (value : Word) (lane : Lane) (s : State)

theorem exec_prescaleWrite_eq : exec (.prescaleWrite value) s = s.accept (s.configOnly
    (if value.toNat ≤ 7 then s.setTimebase { s.timebase with prescale := value.setWidth 3, divisionFrom := .restart }
     else s.busValue)) := by rfl

theorem exec_blankWrite_eq : exec (.blankWrite lane value) s =
    s.accept (s.configOnly (s.setLaneConfig (s.laneConfig.update lane fun c => { c with blanking := value }))) := by rfl

theorem exec_gwinWrite_eq : exec (.gwinWrite value) s = s.accept (s.configOnly
    (if value.toNat ≤ Config.maxWindow then s.setTable { s.table with window := value.toNat } else s.busValue)) := by rfl

theorem exec_votecfgWrite_eq : exec (.votecfgWrite value) s =
    s.accept (s.configOnly (s.setVote { tolerance := fieldNat value 0 15, singleLane := bit value 15 })) := by rfl

theorem exec_hweightWrite_eq : exec (.hweightWrite value) s = s.accept (s.configOnly
    (if fieldNat value 0 4 = 0 || fieldNat value 4 4 = 0 then s.busValue
     else s.setHealthConfig { s.healthConfig with
       missWeight := fieldNat value 0 4, deviantWeight := fieldNat value 4 4, autoReadmit := bit value 8 })) := by rfl

theorem exec_hlevelWrite_eq : exec (.hlevelWrite value) s = s.accept (s.configOnly
    (if fieldNat value 0 6 = 0 || fieldNat value 8 6 = 0 then s.busValue
     else s.setHealthConfig { s.healthConfig with suspect := fieldNat value 0 6, exclude := fieldNat value 8 6 })) := by rfl

theorem exec_hrunWrite_eq : exec (.hrunWrite value) s = s.accept (s.configOnly
    (if fieldNat value 0 8 = 0 || fieldNat value 8 8 = 0 then s.busValue
     else s.setHealthConfig { s.healthConfig with probation := fieldNat value 0 8, readmit := fieldNat value 8 8 })) := by rfl

theorem exec_qthrWrite_eq : exec (.qthrWrite value) s = s.accept (s.configOnly
    (if 1 ≤ value.toNat && value.toNat ≤ Config.maxRecords then s.setQueue { s.queue with threshold := value.toNat }
     else s.busValue)) := by rfl

theorem exec_schcfgWrite_eq : exec (.schcfgWrite value) s =
    s.accept (s.configOnly (s.setSchedule { s.schedule with latePolicy := latePolicyOfBit (bit value 0) })) := by rfl

/-- R14: what a write of LCFGx sets, given the polarity its code names. -/
def State.writeLcfg (s : State) (lane : Lane) (value : Word) : Option Polarity → State
  | none => s.busValue
  | some polarity =>
    if filterInRange (fieldNat value 4 5) then
      s.setLaneConfig (s.laneConfig.update lane fun c =>
        { c with enable := bit value 0, polarity := polarity, filter := fieldNat value 4 5 })
    else s.busValue

theorem exec_lcfgWrite_eq : exec (.lcfgWrite lane value) s =
    s.accept (s.configOnly (s.writeLcfg lane value (polarityOfCode (field value 1 2)))) := by rfl

end

/-- R169: the write of each CONFIG-only register. -/
theorem exec_configOnly_of_mem {value : Word} {lane : Lane} {c : Instr}
    (h : c ∈ [Instr.prescaleWrite value, .lcfgWrite lane value, .blankWrite lane value, .gwinWrite value, .votecfgWrite value,
      .hweightWrite value, .hlevelWrite value, .hrunWrite value, .qthrWrite value, .schcfgWrite value]) (s : State) :
    ∃ t, exec c s = s.accept (s.configOnly t) := by
  simp only [List.mem_cons, List.not_mem_nil, or_false] at h
  rcases h with rfl | rfl | rfl | rfl | rfl | rfl | rfl | rfl | rfl | rfl
  · exact ⟨_, exec_prescaleWrite_eq value s⟩
  · exact ⟨_, exec_lcfgWrite_eq value lane s⟩
  · exact ⟨_, exec_blankWrite_eq value lane s⟩
  · exact ⟨_, exec_gwinWrite_eq value s⟩
  · exact ⟨_, exec_votecfgWrite_eq value s⟩
  · exact ⟨_, exec_hweightWrite_eq value s⟩
  · exact ⟨_, exec_hlevelWrite_eq value s⟩
  · exact ⟨_, exec_hrunWrite_eq value s⟩
  · exact ⟨_, exec_qthrWrite_eq value s⟩
  · exact ⟨_, exec_schcfgWrite_eq value s⟩

/-- Settles O53: in RUN each of the ten writes sets STATE. -/
theorem configOnlyWriteInRunIsIgnored : Obligations.ConfigOnlyWriteInRunIsIgnored := by
  intro value lane c s released run h
  obtain ⟨t, write⟩ := exec_configOnly_of_mem h s
  exact exec_configOnly_of_run released run write

theorem fieldNat_eq (w : Word) (lo len : Nat) : fieldNat w lo len = w.toNat / 2 ^ lo % 2 ^ len := by
  rw [fieldNat, field, BitVec.extractLsb'_toNat, Nat.shiftRight_eq_div_pow]

theorem fieldNat_low (w : Word) (len : Nat) : fieldNat w 0 len = w.toNat % 2 ^ len := by
  rw [fieldNat_eq, Nat.pow_zero, Nat.div_one]

theorem fieldNat_weights (w : Word) : fieldNat w 0 4 = w.toNat % 16 ∧ fieldNat w 4 4 = w.toNat / 16 % 16 :=
  ⟨fieldNat_low w 4, fieldNat_eq w 4 4⟩

theorem fieldNat_levels (w : Word) : fieldNat w 0 6 = w.toNat % 64 ∧ fieldNat w 8 6 = w.toNat / 256 % 64 :=
  ⟨fieldNat_low w 6, fieldNat_eq w 8 6⟩

theorem fieldNat_runs (w : Word) : fieldNat w 0 8 = w.toNat % 256 ∧ fieldNat w 8 8 = w.toNat / 256 := by
  refine ⟨fieldNat_low w 8, ?_⟩
  have : w.toNat < 65536 := w.isLt
  rw [fieldNat_eq]
  omega

theorem neither_zero {a b : Nat} (ha : a ≠ 0) (hb : b ≠ 0) : ¬ (decide (a = 0) || decide (b = 0)) = true := by
  simp only [ha, hb, decide_false, Bool.or_false, Bool.false_eq_true, not_false_eq_true]

theorem one_zero {a b : Nat} (h : a = 0 ∨ b = 0) : (decide (a = 0) || decide (b = 0)) = true := by
  simpa only [Bool.or_eq_true, decide_eq_true_eq] using h

/-- R14: the polarity of a write of LCFGx. -/
theorem polarityOfCode_eq {value : Word} {polarity : Polarity}
    (h : (value.toNat / 2 % 4 = 0 ∧ polarity = .rising) ∨ (value.toNat / 2 % 4 = 1 ∧ polarity = .falling) ∨
      (value.toNat / 2 % 4 = 2 ∧ polarity = .both)) : polarityOfCode (field value 1 2) = some polarity := by
  rcases h with ⟨code, rfl⟩ | ⟨code, rfl⟩ | ⟨code, rfl⟩ <;> simp only [polarityOfCode, lineField_toNat, code]

theorem polarityOfCode_eq_none {value : Word} (h : value.toNat / 2 % 4 = 3) : polarityOfCode (field value 1 2) = none := by
  simp only [polarityOfCode, lineField_toNat, h]

/-- Settles O54: each register with its value in range. -/
theorem configWriteInRangeIsTaken : Obligations.ConfigWriteInRangeIsTaken := by
  refine ⟨fun value lane s released config => ?_, fun value s released config => ?_⟩
  · refine ⟨fun range => ?_, fun polarity low high code => ?_, ?_, fun range => ?_, ?_⟩ <;>
      refine exec_configOnly_of_config released config ?_
    · rw [exec_prescaleWrite_eq, if_pos range, BitVec.ofNat_toNat]
      rfl
    · have range : filterInRange (fieldNat value 4 5) = true := by
        rw [filterInRange_iff, fieldNat_eq]
        exact ⟨low, high⟩
      rw [exec_lcfgWrite_eq, polarityOfCode_eq code, State.writeLcfg, if_pos range, fieldNat_eq]
      rfl
    · exact exec_blankWrite_eq value lane s
    · rw [exec_gwinWrite_eq, if_pos range]
      rfl
    · rw [exec_votecfgWrite_eq, fieldNat_low]
      rfl
  · refine ⟨fun low high => ?_, fun low high => ?_, fun low high => ?_, fun low high => ?_, ?_⟩ <;>
      refine exec_configOnly_of_config released config ?_
    · rw [exec_hweightWrite_eq, (fieldNat_weights value).1, (fieldNat_weights value).2, if_neg (neither_zero low high)]
      rfl
    · rw [exec_hlevelWrite_eq, (fieldNat_levels value).1, (fieldNat_levels value).2, if_neg (neither_zero low high)]
      rfl
    · rw [exec_hrunWrite_eq, (fieldNat_runs value).1, (fieldNat_runs value).2, if_neg (neither_zero low high)]
      rfl
    · rw [exec_qthrWrite_eq, if_pos (Bool.and_eq_true_iff.mpr ⟨decide_eq_true low, decide_eq_true high⟩)]
      rfl
    · exact exec_schcfgWrite_eq value s

/-- R14: a polarity code of 3 or a filter length out of range refuses the whole write of LCFGx. -/
theorem State.writeLcfg_of_refused {value : Word}
    (h : value.toNat / 2 % 4 = 3 ∨ value.toNat / 16 % 32 = 0 ∨ 16 < value.toNat / 16 % 32) (s : State) (lane : Lane) :
    s.writeLcfg lane value (polarityOfCode (field value 1 2)) = s.busValue := by
  rcases h with code | length
  · rw [polarityOfCode_eq_none code]
    rfl
  · cases polarityOfCode (field value 1 2) with
    | none => rfl
    | some polarity =>
      refine if_neg ?_
      rw [filterInRange_iff, fieldNat_eq]
      omega

/-- Settles O55: each register with its value out of range. -/
theorem configWriteOutOfRangeIsRefused : Obligations.ConfigWriteOutOfRangeIsRefused := by
  intro value lane c s released config h
  rw [← State.busValue_eq]
  rcases h with ⟨rfl, range⟩ | ⟨rfl, range⟩ | ⟨rfl, range⟩ | ⟨rfl, range⟩ | ⟨rfl, range⟩ | ⟨rfl, range⟩ | ⟨rfl, range⟩ <;>
    refine exec_configOnly_of_config released config ?_
  · rw [exec_prescaleWrite_eq, if_neg (Nat.not_le.mpr range)]
  · rw [exec_lcfgWrite_eq, State.writeLcfg_of_refused range]
  · rw [exec_gwinWrite_eq, if_neg (Nat.not_le.mpr range)]
  · rw [exec_hweightWrite_eq, (fieldNat_weights value).1, (fieldNat_weights value).2, if_pos (one_zero range)]
  · rw [exec_hlevelWrite_eq, (fieldNat_levels value).1, (fieldNat_levels value).2, if_pos (one_zero range)]
  · rw [exec_hrunWrite_eq, (fieldNat_runs value).1, (fieldNat_runs value).2, if_pos (one_zero range)]
  · have test : ¬ (1 ≤ value.toNat && value.toNat ≤ Config.maxRecords) = true := by
      simp only [Bool.and_eq_true, decide_eq_true_eq, Config.maxRecords]
      omega
    rw [exec_qthrWrite_eq, if_neg test]

/-! ## Flags and IRQ -/

theorem placeBit_getLsbD (b : Bool) (n i : Nat) : (placeBit b n).getLsbD i = true ↔ i = n ∧ n < 16 ∧ b = true := by
  rw [placeBit, place_getLsbD, BitVec.getLsbD_ofBool]
  simp only [Bool.and_eq_true, decide_eq_true_eq]
  constructor
  · rintro ⟨⟨hi, hn⟩, h0, hb⟩
    exact ⟨by omega, by omega, hb⟩
  · rintro ⟨rfl, hi, hb⟩
    exact ⟨⟨hi, le_rfl⟩, Nat.sub_self i, hb⟩

theorem State.inten_getLsbD (s : State) (i : Nat) : s.inten.getLsbD i = true ↔ s.interrupt.enables.getLsbD i = true := by
  rw [State.inten, place_getLsbD]
  simp only [Nat.sub_zero, Nat.zero_le, decide_true, Bool.and_true, Bool.and_eq_true, decide_eq_true_eq, and_iff_right_iff_imp]
  exact fun h => (BitVec.lt_of_getLsbD h).trans (by decide)

theorem word_ne_zero_iff (w : Word) : (w != 0) = true ↔ ∃ i, w.getLsbD i = true := by
  rw [bne_iff_ne, ← not_iff_not, not_ne_iff]
  refine ⟨fun h => by simp [h], fun h => BitVec.eq_of_getLsbD_eq fun i _ => ?_⟩
  simpa using fun b => h ⟨i, b⟩

/-- Settles O56: the three flag registers, and IRQ bit by bit. -/
theorem flagWritesAndIrq : Obligations.FlagWritesAndIrq := by
  refine ⟨fun value s released => ⟨exec_next_of_accept released rfl, exec_next_of_accept released rfl,
    exec_next_of_accept released rfl⟩, fun s => ?_⟩
  have level : s.eventLevel = true ↔ s.queue.threshold ≤ s.queue.records.length := decide_eq_true_iff
  rw [← level, State.irqAsserted, word_ne_zero_iff, State.intflag]
  simp only [BitVec.getLsbD_and, BitVec.getLsbD_or, placeBit_getLsbD, State.inten_getLsbD, Bool.and_eq_true, Bool.or_eq_true,
    or_and_right, exists_or, and_assoc, exists_eq_left, or_assoc, Nat.reduceLT, true_and]

end Sys2Proof.Machine
end

section
/-! PROOF. The register window: which command an access makes, and the accesses of a pair (R155, R183 to R189, R193). -/

namespace Sys2Proof.Machine

/-! ## The command of an access -/

theorem namesCommand_of_unused {code : BitVec 8} (h : code.toNat = 0 ∨ 0x0E ≤ code.toNat) : namesCommand code = false := by
  rw [Bool.eq_false_iff]
  simp only [namesCommand, ne_eq, Bool.and_eq_true, decide_eq_true_eq]
  omega

/-- The addresses that a write reaches (section 11.5). -/
def writableAddresses : List Address :=
  [0x01, 0x03, 0x04, 0x05, 0x06, 0x0A, 0x0B, 0x0C, 0x0D, 0x0E, 0x0F, 0x11, 0x12, 0x15, 0x16, 0x17, 0x20, 0x21, 0x22, 0x23, 0x24,
   0x25, 0x2E, 0x40, 0x41, 0x42, 0x43, 0x44, 0x46, 0x48]

theorem writableAddress_of_notMem {address : Address} (h : address ∉ writableAddresses) : writableAddress address = false := by
  revert address
  decide

/-- The pairs with the addresses of their low words (section 11.5). -/
def pairAddresses : List (Pair × Address) :=
  [(.tbase, 0x08), (.healthA, 0x18), (.healthB, 0x1A), (.healthC, 0x1C), (.pmin, 0x20), (.pmax, 0x22), (.stallto, 0x24),
   (.lastanc, 0x26), (.refper, 0x28), (.anccnt, 0x2A), (.rec4, 0x34), (.rec6, 0x36), (.rec8, 0x38), (.rec10, 0x3A),
   (.armnext, 0x4C), (.snaptime, 0x50)]

theorem pairAt_of_mem {p : Pair × Address} (h : p ∈ pairAddresses) :
    pairAt p.2 = some (p.1, false) ∧ pairAt (p.2 + 1) = some (p.1, true) := by
  revert p
  decide

theorem pairAt_of_notMem {address : Address} (h : ∀ p ∈ pairAddresses, address ≠ p.2 ∧ address ≠ p.2 + 1) :
    pairAt address = none := by
  revert address
  decide

theorem exec_illegal_of_unused {code : BitVec 8} (h : code.toNat = 0 ∨ 0x0E ≤ code.toNat) (arg : BitVec 8) (s : State) :
    exec (.illegal code arg) s = s.accept (s.answer code .illegal) := by
  have : exec (.illegal code arg) s = execIllegal code arg s := by rfl
  rw [this, execIllegal_wellFormed (by rw [Instr.wellFormed, namesCommand_of_unused h, Bool.not_false])]

theorem exec_unknownOperation_of_unused {operation : BitVec 3} (h : 3 ≤ operation.toNat) (index : BitVec 4) (s : State) :
    exec (.unknownOperation operation index) s = s.accept (s.setSchedule (s.schedule.report operation index .arg)) := by
  have : exec (.unknownOperation operation index) s = execUnknownOperation operation index s := by rfl
  rw [this, execUnknownOperation_wellFormed (by rw [Instr.wellFormed]; exact decide_eq_true h)]

theorem exec_registerWrite_eq (address : Address) (value : Word) (s : State) :
    exec (.registerWrite address value) s = exec (commandOfWrite address value) s := by
  rw [← takeWrite_commandOfWrite]
  rfl

theorem exec_registerWrite_of_wellFormed {address : Address} {value : Word}
    (h : (Instr.registerWrite address value).wellFormed = true) (s : State) : exec (.registerWrite address value) s = .next s := by
  have : exec (.registerWrite address value) s = execRegisterWrite address value s := by rfl
  rw [this, execRegisterWrite_wellFormed h]

/-- Section 11.7: the four operations of an ECTL write. -/
theorem commandOfOperation_of_code {operation : BitVec 3} (index : BitVec 4) :
    (operation = 0 → commandOfOperation operation index = .readShadow index) ∧
    (operation = 1 → commandOfOperation operation index = .readActive index) ∧
    (operation = 2 → commandOfOperation operation index = .write index) :=
  ⟨fun h => h ▸ rfl, fun h => h ▸ rfl, fun h => h ▸ rfl⟩

section
variable {pins : BusPins}

theorem BusPins.not_taken (h : pins.reset = true ∨ pins.chipSelect = false ∨ pins.readStrobe = pins.writeStrobe) :
    pins.reads = false ∧ pins.writes = false := by
  unfold BusPins.reads BusPins.writes
  rcases h with reset | unselected | strobes
  · simp only [reset, Bool.not_true, Bool.false_and, and_self]
  · simp only [unselected, Bool.and_false, Bool.false_and, and_self]
  · simp only [strobes, Bool.and_assoc, Bool.and_not_self, Bool.and_false, and_self]

theorem BusPins.write_taken (reset : pins.reset = false) (select : pins.chipSelect = true) (read : pins.readStrobe = false)
    (write : pins.writeStrobe = true) : pins.reads = false ∧ pins.writes = true := by
  simp only [BusPins.reads, BusPins.writes, reset, select, read, write, Bool.not_false, Bool.not_true, Bool.and_false, Bool.and_true,
    and_self]

theorem BusPins.read_taken (reset : pins.reset = false) (select : pins.chipSelect = true) (read : pins.readStrobe = true)
    (write : pins.writeStrobe = false) : pins.reads = true := by
  simp only [BusPins.reads, reset, select, read, write, Bool.not_false, Bool.and_true]

end

theorem State.dataBus_of_no_read {pins : BusPins} (h : pins.reads = false) (s : State) : s.dataBus pins = none := by
  rw [State.dataBus, h, Bool.false_and, if_neg Bool.false_ne_true]

theorem State.dataBus_of_read {pins : BusPins} (h : pins.reads = true) (s : State) :
    s.dataBus pins = if s.resetAsserted then none else some (s.readAddress pins.address) := by
  rw [State.dataBus, h, Bool.true_and]
  cases s.resetAsserted <;> rfl

/-- Settles O52: the refused and ignored commands, every write, every read, and what the pins select. -/
theorem writeMakesTheAddressedCommandOrNone : Obligations.WriteMakesTheAddressedCommandOrNone := by
  refine ⟨fun s => ⟨fun code arg h released => ?_, fun operation index h released => ?_, fun address value h => ?_⟩,
    fun address value => ⟨exec_registerWrite_eq address value, fun h => ⟨?_, fun s => ?_⟩⟩, fun value => ?_,
    fun arg => ?_, fun p h => ?_, fun address h => ?_, fun pins s => ⟨fun h => ?_, fun reset select read write => ?_,
      fun reset select read write => ⟨?_, fun released => ?_, fun asserted => ?_⟩⟩⟩
  · exact exec_next_of_accept released (exec_illegal_of_unused h arg s)
  · exact exec_next_of_accept released (exec_unknownOperation_of_unused h index s)
  · exact exec_registerWrite_of_wellFormed h s
  · exact commandOfWrite_ignored (writableAddress_of_notMem h)
  · refine exec_registerWrite_of_wellFormed ?_ s
    rw [Instr.wellFormed, writableAddress_of_notMem h, Bool.not_false]
  · obtain ⟨shadow, active, write⟩ := commandOfOperation_of_code (operation := value.extractLsb' 4 3) (value.extractLsb' 0 4)
    exact ⟨rfl, rfl, rfl, rfl, rfl, rfl, rfl, rfl, rfl, rfl, rfl, rfl, rfl, rfl, rfl, rfl, rfl, rfl, rfl, rfl, rfl, rfl, rfl, rfl, rfl,
      rfl, rfl, shadow, active, write, commandOfOperation_unknown, rfl, rfl⟩
  · exact ⟨rfl, rfl, rfl, rfl, rfl, rfl, rfl, rfl, rfl, rfl, rfl, rfl, rfl, fun code h => commandOfCode_illegal (namesCommand_of_unused h)⟩
  · obtain ⟨low, high⟩ := pairAt_of_mem h
    simp only [commandOfRead, low, high, and_self]
  · simp only [commandOfRead, pairAt_of_notMem h]
  · obtain ⟨reads, writes⟩ := BusPins.not_taken h
    exact ⟨by simp only [commandOfAccess, reads, writes, Bool.false_eq_true, if_false], s.dataBus_of_no_read reads⟩
  · obtain ⟨reads, writes⟩ := BusPins.write_taken reset select read write
    exact ⟨by simp only [commandOfAccess, reads, writes, Bool.false_eq_true, if_false, if_true], s.dataBus_of_no_read reads⟩
  · exact if_pos (BusPins.read_taken reset select read write)
  · rw [s.dataBus_of_read (BusPins.read_taken reset select read write), released, if_neg Bool.false_ne_true]
  · rw [s.dataBus_of_read (BusPins.read_taken reset select read write), asserted, if_pos rfl]

/-! ## The accesses of a pair -/

section
variable {s : State}

theorem exec_pairHighRead_of_tag {pair : Pair} (h : s.window.readTag = some pair) : exec (.pairHighRead pair) s =
    s.accept { s with window := { s.window with readTag := none, readData := s.window.readValue } } := by
  have : exec (.pairHighRead pair) s = execPairHighRead pair s := by rfl
  rw [this, execPairHighRead, if_pos h]
  rfl

theorem exec_pairHighRead_of_no_tag {pair : Pair} (h : s.window.readTag ≠ some pair) : exec (.pairHighRead pair) s =
    s.accept { s with
      window := { s.window with readData := (s.pairValue pair).extractLsb' 16 16,
                                busStatus := { s.window.busStatus with order := true } }
      interrupt := { s.interrupt with flags := { s.interrupt.flags with access := true } } } := by
  have : exec (.pairHighRead pair) s = execPairHighRead pair s := by rfl
  rw [this, execPairHighRead, if_neg h]
  rfl

theorem exec_pairLowWrite_of_no_tag {pair : WritablePair} (h : s.window.writeTag ≠ some pair) (value : Word) :
    exec (.pairLowWrite pair value) s = s.accept { s with
      window := { s.window with busStatus := { s.window.busStatus with order := true } }
      interrupt := { s.interrupt with flags := { s.interrupt.flags with access := true } } } := by
  have : exec (.pairLowWrite pair value) s = execPairLowWrite pair value s := by rfl
  rw [this, execPairLowWrite, if_neg h]
  rfl

end

end Sys2Proof.Machine
end

section
/-! PROOF. Words as rows of fields: a placed row is its fields placed, and what each status register shows (sections 11.5 to 11.9). -/

namespace Sys2Proof.Machine

/-! ## Placing a row of fields -/

theorem place_append {a b : Nat} (hi : BitVec a) (lo : BitVec b) (k : Nat) : place (hi ++ lo) k = place lo k ||| place hi (b + k) := by
  refine BitVec.eq_of_getLsbD_eq fun i _ => ?_
  rw [BitVec.getLsbD_or, place_getLsbD, place_getLsbD, place_getLsbD, BitVec.getLsbD_append]
  by_cases h : i - k < b
  · have low : ¬ b + k ≤ i := by omega
    simp [h, low]
  · have absent : lo.getLsbD (i - k) = false := BitVec.getLsbD_of_ge _ _ (Nat.not_lt.mp h)
    by_cases le : b + k ≤ i
    · have above : k ≤ i := by omega
      simp [h, le, above, absent, Nat.sub_sub, Nat.add_comm]
    · have below : ¬ k ≤ i := by omega
      simp [le, below]

theorem place_zero (n k : Nat) : place (0#n) k = 0#16 := by
  simp [place]

theorem place_self (w : Word) : place w 0 = w := by
  simp [place]

/-! ## One-bit codes -/

theorem ofBool_partStateBit (p : PartState) : BitVec.ofBool (partStateBit p) = match p with | .config => 0#1 | .run => 1#1 := by
  cases p <;> rfl

theorem ofBool_bankBit (bank : Bank) : BitVec.ofBool (bankBit bank) = match bank with | .a => 0#1 | .b => 1#1 := by
  cases bank <;> rfl

theorem ofBool_delayModeBit (m : DelayMode) : BitVec.ofBool (delayModeBit m) = match m with | .ticks => 0#1 | .fraction => 1#1 := by
  cases m <;> rfl

theorem ofBool_latePolicyBit (p : LatePolicy) : BitVec.ofBool (latePolicyBit p) = match p with | .skip => 0#1 | .execute => 1#1 := by
  cases p <;> rfl

theorem ofBool_stalled (t : StallState) :
    BitVec.ofBool (t = .stalled) = match t with | .watching => 0#1 | .stalled => 1#1 := by
  cases t <;> rfl

theorem ofNat_lineIndex (line : Line) :
    BitVec.ofNat 2 (lineIndex line) = match line with | .out0 => 0#2 | .out1 => 1#2 | .out2 => 2#2 | .out3 => 3#2 := by
  cases line <;> rfl

/-! ## The status registers -/

theorem CommandUnit.runstat_eq (c : CommandUnit) :
    c.runstat = 0#13 ++ entryCauseCode c.entryCause ++ BitVec.ofBool (partStateBit c.partState) := by
  refine Eq.trans ?_ (place_self _)
  simp only [place_append, place_zero, BitVec.or_zero, CommandUnit.runstat, placeBit]

theorem CommandUnit.cmdres_eq (c : CommandUnit) : c.cmdres = c.code ++ resultCode c.result ++ BitVec.ofNat 4 c.startError := by
  refine Eq.trans ?_ (place_self _)
  simp only [place_append, CommandUnit.cmdres, placeNat, BitVec.or_assoc]
  ac_rfl

theorem BusStatus.word_eq (b : BusStatus) :
    b.word = 0#13 ++ BitVec.ofBool b.value ++ BitVec.ofBool b.state ++ BitVec.ofBool b.order := by
  refine Eq.trans ?_ (place_self _)
  simp only [place_append, place_zero, BitVec.or_zero, BusStatus.word, placeBit, BitVec.or_assoc]

theorem State.intflag_eq (s : State) : s.intflag =
    0#8 ++ BitVec.ofBool s.interrupt.flags.access ++ BitVec.ofBool s.interrupt.flags.limit ++
      BitVec.ofBool s.interrupt.flags.missed ++ BitVec.ofBool s.interrupt.flags.commit ++
      BitVec.ofBool s.interrupt.flags.overrun ++ BitVec.ofBool s.interrupt.flags.stall ++
      BitVec.ofBool s.interrupt.flags.lane ++ BitVec.ofBool s.eventLevel := by
  refine Eq.trans ?_ (place_self _)
  simp only [place_append, place_zero, BitVec.or_zero, State.intflag, placeBit, BitVec.or_assoc]

theorem LaneConfig.word_eq (c : LaneConfig) :
    c.word = 0#7 ++ BitVec.ofNat 5 c.filter ++ 0#1 ++ polarityCode c.polarity ++ BitVec.ofBool c.enable := by
  refine Eq.trans ?_ (place_self _)
  simp only [place_append, place_zero, BitVec.zero_or, BitVec.or_zero, LaneConfig.word, placeBit, placeNat, BitVec.or_assoc]

/-- R15: a lane's two bits of LEVELS. -/
theorem State.laneLevels_eq (s : State) (l : Lane) (lo : Nat) : s.laneLevels l lo =
    place (BitVec.ofBool (s.samples l) ++ BitVec.ofBool (s.samples l && (s.frontEnds.get l).level)) lo := by
  rw [State.laneLevels, place_append, Nat.add_comm 1 lo]
  cases s.samples l
  · simp only [Bool.false_eq_true, if_false, Bool.false_and]
    exact (BitVec.or_self.symm.trans (congrArg₂ (· ||| ·) (place_zero 1 lo).symm (place_zero 1 (lo + 1)).symm))
  · simp only [if_true, Bool.true_and, placeBit]

theorem State.samples_eq (s : State) (l : Lane) : s.samples l =
    decide (s.command.partState = .run ∧ (s.health.get l).state ≠ .idle ∧ (s.health.get l).state ≠ .off) := by
  rw [State.samples, State.inRun]
  cases s.command.partState <;> cases (s.health.get l).state <;> rfl

theorem Schedule.ectl_eq (c : Schedule) : c.ectl = 0#9 ++ (c.operation ++ c.index) := by
  refine Eq.trans ?_ (place_self _)
  simp only [place_append, place_zero, BitVec.or_zero, Schedule.ectl]

/-- ESTAT: ECTL with the result of the operation. -/
theorem Schedule.estat_eq (c : Schedule) : c.ectl ||| place (entryResultCode c.entryResult) 8 =
    0#6 ++ entryResultCode c.entryResult ++ 0#1 ++ (c.operation ++ c.index) := by
  refine Eq.trans ?_ (place_self _)
  simp only [place_append, place_zero, BitVec.zero_or, BitVec.or_zero, Schedule.ectl, BitVec.or_assoc]

/-- SCHSTAT. -/
theorem Schedule.schstat_eq (c : Schedule) : place (commitCode c.commit) 0 ||| placeBit (bankBit c.active) 4 =
    0#11 ++ BitVec.ofBool (bankBit c.active) ++ 0#2 ++ commitCode c.commit := by
  refine Eq.trans ?_ (place_self _)
  simp only [place_append, place_zero, BitVec.zero_or, BitVec.or_zero, placeBit]

theorem Staging.read_estg0_eq (g : Staging) : g.read .estg0 =
    0#4 ++ BitVec.ofBool (delayModeBit g.mode) ++ g.exponent ++ 0#1 ++ g.action ++ 0#1 ++ BitVec.ofNat 2 (lineIndex g.line) ++
      BitVec.ofBool g.enabled := by
  refine Eq.trans ?_ (place_self _)
  simp only [place_append, place_zero, BitVec.zero_or, BitVec.or_zero, Staging.read, placeBit, placeNat, BitVec.or_assoc]

theorem Staging.read_estg1_eq (g : Staging) : g.read .estg1 = g.delayHigh ++ 0#2 ++ g.phase := by
  refine Eq.trans ?_ (place_self _)
  simp only [place_append, place_zero, BitVec.zero_or, Staging.read]

/-- The four bits of an indication of the lines, OUT0 lowest. -/
def lineRow (v : Lines Bool) : BitVec 4 :=
  BitVec.ofBool v.out3 ++ BitVec.ofBool v.out2 ++ BitVec.ofBool v.out1 ++ BitVec.ofBool v.out0

/-- OUTCFG and OUTSTAT: two indications of the lines. -/
theorem placeLines_two (u v : Lines Bool) : placeLines u 0 ||| placeLines v 4 = 0#8 ++ lineRow v ++ lineRow u := by
  refine Eq.trans ?_ (place_self _)
  simp only [place_append, place_zero, BitVec.or_zero, placeLines, placeBit, lineRow, BitVec.or_assoc]

/-- ARMSTAT. -/
theorem State.armstat_eq (s : State) :
    placeNat s.armed.length 5 0 ||| placeBit (s.lineArmed .out0) 8 ||| placeBit (s.lineArmed .out1) 9 |||
        placeBit (s.lineArmed .out2) 10 ||| placeBit (s.lineArmed .out3) 11 =
      0#4 ++ lineRow (Lines.build s.lineArmed) ++ 0#3 ++ BitVec.ofNat 5 s.armed.length := by
  refine Eq.trans ?_ (place_self _)
  simp only [place_append, place_zero, BitVec.zero_or, BitVec.or_zero, placeBit, placeNat, lineRow, Lines.build, BitVec.or_assoc]

/-- LEVELS. -/
theorem State.levels_eq (s : State) {levels : Lane → BitVec 2}
    (h : ∀ l, levels l = BitVec.ofBool (s.samples l) ++ BitVec.ofBool (s.samples l && (s.frontEnds.get l).level)) :
    s.laneLevels .a 0 ||| s.laneLevels .b 2 ||| s.laneLevels .c 4 = 0#10 ++ levels .c ++ levels .b ++ levels .a := by
  refine Eq.trans ?_ (place_self _)
  rw [place_append (a := 10 + 2 + 2) (b := 2), place_append (a := 10 + 2) (b := 2), place_append (a := 10) (b := 2), place_zero,
    BitVec.or_zero, BitVec.or_assoc]
  simp only [State.laneLevels_eq, ← h]

/-- TRKSTAT. -/
theorem State.trkstat_eq (s : State) :
    placeBit (s.tracker.stall = .stalled) 0 ||| placeBit s.tracker.lastAnchor.isSome 1 ||| placeBit s.tracker.refPeriod.isSome 2 =
      0#13 ++ BitVec.ofBool s.tracker.refPeriod.isSome ++ BitVec.ofBool s.tracker.lastAnchor.isSome ++
        BitVec.ofBool (s.tracker.stall = .stalled) := by
  refine Eq.trans ?_ (place_self _)
  simp only [place_append, place_zero, BitVec.or_zero, placeBit, BitVec.or_assoc]

/-- VOTECFG. -/
theorem VoteConfig.word_eq (v : VoteConfig) : placeNat v.tolerance 15 0 ||| placeBit v.singleLane 15 =
    BitVec.ofBool v.singleLane ++ BitVec.ofNat 15 v.tolerance := by
  refine Eq.trans ?_ (place_self _)
  simp only [place_append, placeNat, placeBit]

/-- GRPSTAT. -/
theorem GroupTable.word_eq (t : GroupTable) : placeNat t.groups.length 3 0 ||| placeNat t.settle 4 8 =
    0#4 ++ BitVec.ofNat 4 t.settle ++ 0#5 ++ BitVec.ofNat 3 t.groups.length := by
  refine Eq.trans ?_ (place_self _)
  simp only [place_append, place_zero, BitVec.zero_or, BitVec.or_zero, placeNat]

/-- HWEIGHT. -/
theorem HealthConfig.weights_eq (c : HealthConfig) :
    placeNat c.missWeight 4 0 ||| placeNat c.deviantWeight 4 4 ||| placeBit c.autoReadmit 8 =
      0#7 ++ BitVec.ofBool c.autoReadmit ++ BitVec.ofNat 4 c.deviantWeight ++ BitVec.ofNat 4 c.missWeight := by
  refine Eq.trans ?_ (place_self _)
  simp only [place_append, place_zero, BitVec.or_zero, placeNat, placeBit, BitVec.or_assoc]

/-- HLEVEL. -/
theorem HealthConfig.levels_eq (c : HealthConfig) : placeNat c.suspect 6 0 ||| placeNat c.exclude 6 8 =
    0#2 ++ BitVec.ofNat 6 c.exclude ++ 0#2 ++ BitVec.ofNat 6 c.suspect := by
  refine Eq.trans ?_ (place_self _)
  simp only [place_append, place_zero, BitVec.zero_or, BitVec.or_zero, placeNat]

/-- HRUN. -/
theorem HealthConfig.runs_eq (c : HealthConfig) : placeNat c.probation 8 0 ||| placeNat c.readmit 8 8 =
    BitVec.ofNat 8 c.readmit ++ BitVec.ofNat 8 c.probation := by
  refine Eq.trans ?_ (place_self _)
  simp only [place_append, placeNat]

/-! ## The words of the record window -/

/-- REC0 of a GROUP record. -/
theorem GroupFields.word0_eq (g : GroupFields) :
    place (RecordBody.group g).kindCode 0 ||| (RecordBody.group g).word0 =
      0#6 ++ assessmentCode g.assessments.c ++ assessmentCode g.assessments.b ++ assessmentCode g.assessments.a ++ 3#4 := by
  refine Eq.trans ?_ (place_self _)
  simp only [place_append, place_zero, BitVec.or_zero, RecordBody.kindCode, RecordBody.word0, BitVec.or_assoc]
  rfl

/-- REC3 of a GROUP record. -/
theorem GroupFields.word3_eq (g : GroupFields) : (RecordBody.group g).word3 =
    0#2 ++ BitVec.ofBool g.rawPeriod.isSome ++ BitVec.ofBool g.anchorIndex.isSome ++ BitVec.ofBool g.votedTime.isSome ++
      BitVec.ofBool g.offsets.c.isSome ++ BitVec.ofBool g.offsets.b.isSome ++ BitVec.ofBool g.offsets.a.isSome ++
      limiterCode g.limiter ++ BitVec.ofBool g.outOfOrder ++ voteClassCode g.voteClass ++ closeReasonCode g.reason := by
  refine Eq.trans ?_ (place_self _)
  simp only [place_append, place_zero, BitVec.or_zero, RecordBody.word3, placeBit, BitVec.or_assoc]

/-- REC2 of a START record. -/
theorem RecordBody.word2_start (time : Time) (states : Lanes LaneState) : (RecordBody.start time states).word2 =
    0#7 ++ laneStateCode states.c ++ laneStateCode states.b ++ laneStateCode states.a := by
  refine Eq.trans ?_ (place_self _)
  simp only [place_append, place_zero, BitVec.or_zero, RecordBody.word2, BitVec.or_assoc]

/-- REC3 of a LANE record. -/
theorem LaneFields.word3_eq (l : LaneFields) : (RecordBody.lane l).word3 =
    0#5 ++ BitVec.ofBool l.groupSeq.isSome ++ laneCauseCode l.cause ++ laneStateCode l.new ++ laneStateCode l.old ++
      laneCode l.lane := by
  refine Eq.trans ?_ (place_self _)
  simp only [place_append, place_zero, BitVec.or_zero, RecordBody.word3, placeBit, BitVec.or_assoc]

/-- REC2 of a MISSED record. -/
theorem RecordBody.word2_missed (entry : Nat) (bank : Bank) (anchor : Time) (reason : MissedReason) :
    (RecordBody.missed entry bank anchor reason).word2 =
      0#9 ++ missedReasonCode reason ++ BitVec.ofBool (bankBit bank) ++ BitVec.ofNat 4 entry := by
  refine Eq.trans ?_ (place_self _)
  simp only [place_append, place_zero, BitVec.or_zero, RecordBody.word2, placeBit, placeNat, BitVec.or_assoc]

end Sys2Proof.Machine
end

section
/-! PROOF. What a read returns: the pairs, the status registers and the record window (R110, R180 to R192). -/

namespace Sys2Proof.Machine

/-! ## The pairs -/

/-- R81: the fields of a HEALTH pair. -/
theorem HealthRecord.pairValue_eq (h : HealthRecord) : h.pairValue =
    0#8 ++ BitVec.ofNat 8 h.goodRun ++ 0#2 ++ BitVec.ofNat 6 h.score ++ BitVec.ofBool h.mark ++ 0#4 ++ laneStateCode h.state := by
  have high : placeNat h.goodRun 8 0 = 0#8 ++ BitVec.ofNat 8 h.goodRun := by
    refine Eq.trans ?_ (place_self _)
    simp only [place_append, place_zero, BitVec.or_zero, placeNat]
  have low : place (laneStateCode h.state) 0 ||| placeBit h.mark 7 ||| placeNat h.score 6 8 =
      0#2 ++ BitVec.ofNat 6 h.score ++ BitVec.ofBool h.mark ++ 0#4 ++ laneStateCode h.state := by
    refine Eq.trans ?_ (place_self _)
    simp only [place_append, place_zero, BitVec.or_zero, BitVec.zero_or, placeNat, placeBit, BitVec.or_assoc]
  rw [HealthRecord.pairValue, high, low, joinWords]
  apply BitVec.eq_of_toNat_eq
  simp only [BitVec.toNat_append, Nat.shiftLeft_or_distrib, ← Nat.shiftLeft_add, Nat.or_assoc]

theorem State.armedNext_eq (s : State) : s.armedNext = match s.armed with | [] => 0 | x :: _ => x.due := rfl

section
variable {s : State} (f : RecordBody → Time)

theorem State.recordPair_of_empty (h : s.queue.records = []) : s.recordPair f = 0 := by
  simp only [State.recordPair, h]

theorem State.recordPair_of_cons {head : Record} {rest : List Record} (h : s.queue.records = head :: rest) :
    s.recordPair f = f head.body := by
  simp only [State.recordPair, h]

end

/-- Settles O58: the reads and writes of a pair by the holds' tags, and the value each pair shows. -/
theorem pairAccessesGoThroughTheHolds : Obligations.PairAccessesGoThroughTheHolds := by
  refine ⟨fun pair s released => ⟨?_, fun tag => ?_, fun tag => ?_⟩, fun pair value s released => ⟨?_, fun tag => ?_⟩, fun s => ?_⟩
  · exact exec_next_of_accept released rfl
  · exact exec_next_of_accept released (exec_pairHighRead_of_tag tag)
  · exact exec_next_of_accept released (exec_pairHighRead_of_no_tag tag)
  · exact exec_next_of_accept released rfl
  · exact exec_next_of_accept released (exec_pairLowWrite_of_no_tag tag value)
  · refine ⟨rfl, s.health.a.pairValue_eq, s.health.b.pairValue_eq, s.health.c.pairValue_eq, rfl, rfl, rfl, rfl, rfl, rfl,
      s.armedNext_eq, rfl, fun empty => ?_, fun head rest h => ?_⟩
    · exact ⟨State.recordPair_of_empty _ empty, State.recordPair_of_empty _ empty, State.recordPair_of_empty _ empty,
        State.recordPair_of_empty _ empty⟩
    · exact ⟨State.recordPair_of_cons _ h, State.recordPair_of_cons _ h, State.recordPair_of_cons _ h, State.recordPair_of_cons _ h⟩

end Sys2Proof.Machine
end

section
/-! PROOF. The word every location reads (R110, R183, R186, R187, R192, sections 11.5 to 11.9). -/

namespace Sys2Proof.Machine

/-! ## Reads of single words and of pairs -/

theorem State.readAddress_of_single {address : Address} (h : pairAt address = none) (s : State) :
    s.readAddress address = s.singleWord address := by
  simp only [State.readAddress, State.liveWord, h]

theorem State.readAddress_of_low {address : Address} {pair : Pair} (h : pairAt address = some (pair, false)) (s : State) :
    s.readAddress address = lowWord (s.pairValue pair) := by
  simp only [State.readAddress, State.liveWord, h]

theorem State.readAddress_of_high {address : Address} {pair : Pair} (h : pairAt address = some (pair, true)) (s : State) :
    s.readAddress address = if s.window.readTag = some pair then s.window.readValue else highWord (s.pairValue pair) := by
  simp only [State.readAddress, h]

/-- The addresses with no register behind them read 0. -/
theorem State.readAddress_of_unassigned {address : Address}
    (h : address = 0x07 ∨ address = 0x1F ∨ address = 0x2F ∨ address = 0x4B ∨ address = 0x4F ∨ 0x69 ≤ address.toNat) (s : State) :
    s.readAddress address = 0 := by
  rcases h with rfl | rfl | rfl | rfl | rfl | h
  case inr.inr.inr.inr.inr =>
    have below : address.toNat < 128 := address.isLt
    obtain ⟨n, hn⟩ : ∃ n, n = address.toNat := ⟨_, rfl⟩
    have named : address = BitVec.ofNat 7 n := by rw [hn, BitVec.ofNat_toNat, BitVec.setWidth_eq]
    rw [← hn] at h below
    rw [named]
    interval_cases n <;> rfl
  all_goals rfl

/-! ## The record window -/

theorem lowWord_zero : lowWord 0 = 0 := by decide

theorem highWord_zero : highWord 0 = 0 := by decide

theorem State.lowWord_recordPair (s : State) (f : RecordBody → Time) : lowWord (s.recordPair f) =
    match s.queue.records with | [] => 0 | head :: _ => lowWord (f head.body) := by
  cases h : s.queue.records with
  | nil => rw [State.recordPair_of_empty f h, lowWord_zero]
  | cons head rest => rw [State.recordPair_of_cons f h]

theorem State.highWord_recordPair (s : State) (f : RecordBody → Time) : highWord (s.recordPair f) =
    match s.queue.records with | [] => 0 | head :: _ => highWord (f head.body) := by
  cases h : s.queue.records with
  | nil => rw [State.recordPair_of_empty f h, highWord_zero]
  | cons head rest => rw [State.recordPair_of_cons f h]

/-- R186, R187, R192: a word of the record window, but for a captured high word. -/
theorem State.readAddress_of_record {i : Nat} (hi : i < 16) {s : State}
    (live : ∀ p ∈ [(Pair.rec4, 5), (.rec6, 7), (.rec8, 9), (.rec10, 11)], p.2 = i → s.window.readTag ≠ some p.1) :
    s.readAddress (BitVec.ofNat 7 (0x30 + i)) = s.recordWord i := by
  have high {pair : Pair} (h : pairAt (BitVec.ofNat 7 (0x30 + i)) = some (pair, true)) (hp : (pair, i) ∈
      [(Pair.rec4, 5), (.rec6, 7), (.rec8, 9), (.rec10, 11)]) :
      s.readAddress (BitVec.ofNat 7 (0x30 + i)) = highWord (s.pairValue pair) := by
    rw [State.readAddress_of_high h, if_neg (live _ hp rfl)]
  interval_cases i
  · exact State.readAddress_of_single rfl s
  · exact State.readAddress_of_single rfl s
  · exact State.readAddress_of_single rfl s
  · exact State.readAddress_of_single rfl s
  · exact (State.readAddress_of_low (pair := .rec4) rfl s).trans (s.lowWord_recordPair RecordBody.pair4)
  · exact (high (pair := .rec4) rfl (by decide)).trans (s.highWord_recordPair RecordBody.pair4)
  · exact (State.readAddress_of_low (pair := .rec6) rfl s).trans (s.lowWord_recordPair RecordBody.pair6)
  · exact (high (pair := .rec6) rfl (by decide)).trans (s.highWord_recordPair RecordBody.pair6)
  · exact (State.readAddress_of_low (pair := .rec8) rfl s).trans (s.lowWord_recordPair RecordBody.pair8)
  · exact (high (pair := .rec8) rfl (by decide)).trans (s.highWord_recordPair RecordBody.pair8)
  · exact (State.readAddress_of_low (pair := .rec10) rfl s).trans (s.lowWord_recordPair RecordBody.pair10)
  · exact (high (pair := .rec10) rfl (by decide)).trans (s.highWord_recordPair RecordBody.pair10)
  · exact State.readAddress_of_single rfl s
  · exact State.readAddress_of_single rfl s
  · exact State.readAddress_of_single rfl s
  · exact State.readAddress_of_single rfl s

/-- The sixteen words of a record, as a list. -/
def Record.words (r : Record) : List Word :=
  [place r.body.kindCode 0 ||| r.body.word0, r.seq, r.body.word2, r.body.word3, lowWord r.body.pair4, highWord r.body.pair4,
    lowWord r.body.pair6, highWord r.body.pair6, lowWord r.body.pair8, highWord r.body.pair8, lowWord r.body.pair10,
    highWord r.body.pair10, r.body.tailWord 0, r.body.tailWord 1, r.body.tailWord 2, r.body.tailWord 3]

theorem Record.words_getD (r : Record) {i : Nat} (hi : i < 16) : r.words.getD i 0 = r.windowWord i := by
  interval_cases i <;> rfl

theorem Record.words_start (seq : Word) (time : Time) (states : Lanes LaneState) :
    Record.words { seq := seq, body := .start time states } =
      [1, seq, 0#7 ++ laneStateCode states.c ++ laneStateCode states.b ++ laneStateCode states.a, 0, lowWord time, highWord time,
        0, 0, 0, 0, 0, 0, 0, 0, 0, 0] := by
  rw [← RecordBody.word2_start time states]
  simp only [Record.words, RecordBody.kindCode, RecordBody.word0, RecordBody.word2, RecordBody.word3, RecordBody.pair4, RecordBody.pair6,
    RecordBody.pair8, RecordBody.pair10, RecordBody.tailWord, lowWord_zero, highWord_zero]
  rfl

theorem Record.words_stop (seq : Word) (time : Time) (flushed discarded : Nat) :
    Record.words { seq := seq, body := .stop time flushed discarded } =
      [2, seq, BitVec.ofNat 16 flushed, BitVec.ofNat 16 discarded, lowWord time, highWord time, 0, 0, 0, 0, 0, 0, 0, 0, 0, 0] := by
  simp only [Record.words, RecordBody.kindCode, RecordBody.word0, RecordBody.word2, RecordBody.word3, RecordBody.pair4, RecordBody.pair6,
    RecordBody.pair8, RecordBody.pair10, RecordBody.tailWord, lowWord_zero, highWord_zero]
  rfl

theorem Record.words_group (seq : Word) (g : GroupFields) :
    Record.words { seq := seq, body := .group g } =
      [0#6 ++ assessmentCode g.assessments.c ++ assessmentCode g.assessments.b ++ assessmentCode g.assessments.a ++ 3#4, seq, g.seq,
        0#2 ++ BitVec.ofBool g.rawPeriod.isSome ++ BitVec.ofBool g.anchorIndex.isSome ++ BitVec.ofBool g.votedTime.isSome ++
          BitVec.ofBool g.offsets.c.isSome ++ BitVec.ofBool g.offsets.b.isSome ++ BitVec.ofBool g.offsets.a.isSome ++
          limiterCode g.limiter ++ BitVec.ofBool g.outOfOrder ++ voteClassCode g.voteClass ++ closeReasonCode g.reason,
        lowWord g.reference, highWord g.reference, lowWord (g.votedTime.getD 0), highWord (g.votedTime.getD 0),
        lowWord (g.anchorIndex.getD 0), highWord (g.anchorIndex.getD 0), lowWord (g.rawPeriod.getD 0), highWord (g.rawPeriod.getD 0),
        offsetWord g.offsets.a, offsetWord g.offsets.b, offsetWord g.offsets.c, BitVec.ofNat 16 (g.spread.getD 0)] := by
  rw [← g.word0_eq, ← g.word3_eq]
  rfl

theorem Record.words_lane (seq : Word) (l : LaneFields) :
    Record.words { seq := seq, body := .lane l } =
      [4, seq, l.groupSeq.getD 0,
        0#5 ++ BitVec.ofBool l.groupSeq.isSome ++ laneCauseCode l.cause ++ laneStateCode l.new ++ laneStateCode l.old ++
          laneCode l.lane,
        0, 0, 0, 0, 0, 0, 0, 0, BitVec.ofNat 16 l.score, 0, 0, 0] := by
  rw [← l.word3_eq]
  simp only [Record.words, RecordBody.kindCode, RecordBody.word0, RecordBody.word2, RecordBody.word3, RecordBody.pair4, RecordBody.pair6,
    RecordBody.pair8, RecordBody.pair10, RecordBody.tailWord, lowWord_zero, highWord_zero]
  rfl

theorem RecordBody.word3_stall (expiry : Time) (last : Option Time) :
    (RecordBody.stall expiry last).word3 = 0#15 ++ BitVec.ofBool last.isSome := by
  refine Eq.trans ?_ (place_self _)
  simp only [place_append, place_zero, BitVec.or_zero, RecordBody.word3, placeBit]

theorem Record.words_stall (seq : Word) (expiry : Time) (last : Option Time) :
    Record.words { seq := seq, body := .stall expiry last } =
      [5, seq, 0, 0#15 ++ BitVec.ofBool last.isSome, lowWord expiry, highWord expiry, lowWord (last.getD 0), highWord (last.getD 0),
        0, 0, 0, 0, 0, 0, 0, 0] := by
  rw [← RecordBody.word3_stall expiry last]
  simp only [Record.words, RecordBody.kindCode, RecordBody.word0, RecordBody.word2, RecordBody.word3, RecordBody.pair4, RecordBody.pair6,
    RecordBody.pair8, RecordBody.pair10, RecordBody.tailWord, lowWord_zero, highWord_zero]
  rfl

theorem RecordBody.word2_commit (bank : Bank) (anchor : Time) :
    (RecordBody.commit bank anchor).word2 = 0#15 ++ BitVec.ofBool (bankBit bank) := by
  refine Eq.trans ?_ (place_self _)
  simp only [place_append, place_zero, BitVec.or_zero, RecordBody.word2, placeBit]

theorem Record.words_commit (seq : Word) (bank : Bank) (anchor : Time) :
    Record.words { seq := seq, body := .commit bank anchor } =
      [6, seq, 0#15 ++ BitVec.ofBool (bankBit bank), 0, 0, 0, 0, 0, lowWord anchor, highWord anchor, 0, 0, 0, 0, 0, 0] := by
  rw [← RecordBody.word2_commit bank anchor]
  simp only [Record.words, RecordBody.kindCode, RecordBody.word0, RecordBody.word2, RecordBody.word3, RecordBody.pair4, RecordBody.pair6,
    RecordBody.pair8, RecordBody.pair10, RecordBody.tailWord, lowWord_zero, highWord_zero]
  rfl

theorem Record.words_missed (seq : Word) (entry : Nat) (bank : Bank) (anchor : Time) (reason : MissedReason) :
    Record.words { seq := seq, body := .missed entry bank anchor reason } =
      [7, seq, 0#9 ++ missedReasonCode reason ++ BitVec.ofBool (bankBit bank) ++ BitVec.ofNat 4 entry, 0, 0, 0, 0, 0, lowWord anchor,
        highWord anchor, 0, 0, 0, 0, 0, 0] := by
  rw [← RecordBody.word2_missed entry bank anchor reason]
  simp only [Record.words, RecordBody.kindCode, RecordBody.word0, RecordBody.word2, RecordBody.word3, RecordBody.pair4, RecordBody.pair6,
    RecordBody.pair8, RecordBody.pair10, RecordBody.tailWord, lowWord_zero, highWord_zero]
  rfl

theorem Record.words_overrun (seq dropped : Word) :
    Record.words { seq := seq, body := .overrun dropped } = [8, seq, dropped, 0, 0, 0, 0, 0, 0, 0, 0, 0, 0, 0, 0, 0] := by
  simp only [Record.words, RecordBody.kindCode, RecordBody.word0, RecordBody.word2, RecordBody.word3, RecordBody.pair4, RecordBody.pair6,
    RecordBody.pair8, RecordBody.pair10, RecordBody.tailWord, lowWord_zero, highWord_zero]
  rfl

theorem State.recordWord_of_empty {s : State} (h : s.queue.records = []) {i : Nat} (hi : i < 16) :
    s.recordWord i = (List.replicate 16 (0 : Word)).getD i 0 := by
  rw [List.getD_replicate (0 : Word) hi]
  simp only [State.recordWord, h]

theorem State.recordWord_of_cons {s : State} {head : Record} {rest : List Record} (h : s.queue.records = head :: rest) {i : Nat}
    (hi : i < 16) {ws : List Word} (words : head.words = ws) : s.recordWord i = ws.getD i 0 := by
  rw [← words, head.words_getD hi]
  simp only [State.recordWord, h]

/-! ## Every location -/

/-- A field at the foot of a word with zeros above it. -/
theorem place_foot {a b : Nat} (v : BitVec b) : place v 0 = place (0#a ++ v) 0 := by
  rw [place_append, place_zero, BitVec.or_zero]

/-- Settles O60: each location by its own row of fields, the pairs, and the record window by the kind of its head. -/
theorem readsShowTheStateAndTheHead : Obligations.ReadsShowTheStateAndTheHead := by
  intro s entryWindow sampled levels pinLevel holdsFor laneCounts words
  have levelsRow (l : Lane) : levels l = BitVec.ofBool (s.samples l) ++ BitVec.ofBool (s.samples l && (s.frontEnds.get l).level) := by
    rw [State.samples_eq]
  refine ⟨?runstat, rfl, s.command.cmdres_eq, s.window.busStatus.word_eq, s.intflag_eq, ?inten, ?prescale, fun p hp => ?lanes,
    s.levels_eq levelsRow, rfl, s.vote.word_eq, s.table.word_eq, rfl, s.healthConfig.weights_eq, s.healthConfig.levels_eq,
    s.healthConfig.runs_eq, ?trkstat, ?qcount, rfl, rfl, ?estg0, s.schedule.staging.read_estg1_eq, rfl, rfl, s.schedule.ectl_eq,
    s.schedule.estat_eq, ?schcfg, ?schstat, placeLines_two _ _, placeLines_two _ _, s.armstat_eq, ?taken, ?bank, ?unassigned,
    fun p hp => ?pairs, fun i hi live => ?record⟩
  case runstat =>
    exact s.command.runstat_eq.trans
      (congrArg (0#13 ++ entryCauseCode s.command.entryCause ++ ·) (ofBool_partStateBit s.command.partState))
  case inten => exact (place_foot (a := 8) s.interrupt.enables).trans (place_self _)
  case prescale => exact (place_foot (a := 13) s.timebase.prescale).trans (place_self _)
  case lanes =>
    simp only [List.mem_cons, List.not_mem_nil, or_false] at hp
    rcases hp with rfl | rfl | rfl
    · exact ⟨s.laneConfig.a.word_eq, rfl⟩
    · exact ⟨s.laneConfig.b.word_eq, rfl⟩
    · exact ⟨s.laneConfig.c.word_eq, rfl⟩
  case trkstat =>
    exact s.trkstat_eq.trans (congrArg
      (0#13 ++ BitVec.ofBool s.tracker.refPeriod.isSome ++ BitVec.ofBool s.tracker.lastAnchor.isSome ++ ·)
      (ofBool_stalled s.tracker.stall))
  case qcount => exact (place_foot (a := 10) (BitVec.ofNat 6 s.queue.records.length)).trans (place_self _)
  case estg0 =>
    exact s.schedule.staging.read_estg0_eq.trans (congrArg₂
      (0#4 ++ · ++ s.schedule.staging.exponent ++ 0#1 ++ s.schedule.staging.action ++ 0#1 ++ · ++
        BitVec.ofBool s.schedule.staging.enabled)
      (ofBool_delayModeBit s.schedule.staging.mode) (ofNat_lineIndex s.schedule.staging.line))
  case schcfg =>
    exact ((place_foot (a := 15) _).trans (place_self _)).trans
      (congrArg (0#15 ++ ·) (ofBool_latePolicyBit s.schedule.latePolicy))
  case schstat =>
    exact s.schedule.schstat_eq.trans
      (congrArg (0#11 ++ · ++ 0#2 ++ commitCode s.schedule.commit) (ofBool_bankBit s.schedule.active))
  case taken => exact (place_foot (a := 15) (BitVec.ofBool s.stats.taken)).trans (place_self _)
  case bank => rfl
  case unassigned => exact fun address h => State.readAddress_of_unassigned h s
  case pairs =>
    obtain ⟨lowAt, highAt⟩ := pairAt_of_mem hp
    exact ⟨State.readAddress_of_low lowAt s, State.readAddress_of_high highAt s⟩
  case record =>
    rw [State.readAddress_of_record hi live]
    cases records : s.queue.records with
    | nil => exact State.recordWord_of_empty records hi
    | cons head rest =>
      obtain ⟨seq, body⟩ := head
      cases body with
      | start time states => exact State.recordWord_of_cons records hi (Record.words_start seq time states)
      | stop time flushed discarded => exact State.recordWord_of_cons records hi (Record.words_stop seq time flushed discarded)
      | group g => exact State.recordWord_of_cons records hi (Record.words_group seq g)
      | lane l => exact State.recordWord_of_cons records hi (Record.words_lane seq l)
      | stall expiry last => exact State.recordWord_of_cons records hi (Record.words_stall seq expiry last)
      | commit bank anchor =>
        exact State.recordWord_of_cons records hi ((Record.words_commit seq bank anchor).trans (congrArg
          ([6, seq, 0#15 ++ ·, 0, 0, 0, 0, 0, lowWord anchor, highWord anchor, 0, 0, 0, 0, 0, 0]) (ofBool_bankBit bank)))
      | missed entry bank anchor reason =>
        exact State.recordWord_of_cons records hi ((Record.words_missed seq entry bank anchor reason).trans (congrArg
          ([7, seq, 0#9 ++ missedReasonCode reason ++ · ++ BitVec.ofNat 4 entry, 0, 0, 0, 0, 0, lowWord anchor, highWord anchor,
            0, 0, 0, 0, 0, 0]) (ofBool_bankBit bank)))
      | overrun dropped => exact State.recordWord_of_cons records hi (Record.words_overrun seq dropped)

end Sys2Proof.Machine
end
